-- ==== Sys2Proof/Word.lean ====
section
/-! DEFINITION. The word types of the machine: register values, bytes, register numbers and CSR
numbers (spec/00_scope.md R6, R8, R9). -/

namespace Sys2Proof

/-- A register value, an address while it is computed, or an instruction word: 32 bits
(spec/00_scope.md R6). Bit 0 is the least significant (R8); `+` and `-` are modulo 2^32 (R9). -/
abbrev Word := BitVec 32

/-- The addressable unit of memory (spec/10_state.md R35). -/
abbrev Byte := BitVec 8

/-- A 5-bit register field, naming one of `x0` to `x31` (spec/00_scope.md R11). -/
abbrev Reg := BitVec 5

/-- A 12-bit CSR number, `inst[31:20]` of a CSR instruction (spec/10_state.md R29). -/
abbrev CsrNum := BitVec 12

end Sys2Proof
end

