-- ==== Sys2Proof/Config.lean ====
section
/-! DEFINITION. What the spec leaves to the platform (spec/00_scope.md R7): the parameters as plain
data, the values this model names at reset, and the free values, which have no body so that nothing
can be proved of what they are. -/

namespace Sys2Proof

/-- `MISALIGNED_DATA` (spec/00_scope.md R7, spec/20_memory.md R54): what a load or store does at an
address that is not a multiple of its size. -/
inductive MisalignedPolicy where
  /-- The access completes as separate byte accesses: the default. -/
  | split
  /-- The access raises LoadAddressMisaligned or StoreAddressMisaligned. -/
  | trap
  /-- Each misaligned access does one or the other, by a free choice of its own. -/
  | either
  deriving DecidableEq, Repr

/-- The kinds of access `MEM_VALID` distinguishes (spec/20_memory.md R55). -/
inductive AccessKind where
  | fetch
  | load
  | store
  deriving DecidableEq, Repr

/-- A range of byte addresses, both ends included, that does not exist for one kind of access.
`MEM_VALID` is written as the list of its holes (DESIGN CHOICE, safe: log entry 16). -/
structure Hole where
  kind  : AccessKind
  first : Nat
  last  : Nat
  deriving DecidableEq, Repr

/-- The platform's parameters of spec/00_scope.md R7 that a step consults: `MISALIGNED_DATA`,
`MEM_VALID` and `ECALL_CAUSE`. They are carried in State and no step changes them (log entry 5). -/
structure Platform where
  misaligned : MisalignedPolicy
  holes      : List Hole
  ecallCause : Nat
  deriving DecidableEq, Repr

/-- The defaults of spec/00_scope.md R7: `split`, every address valid for every kind, 11. -/
def Config.defaultPlatform : Platform :=
  { misaligned := .split, holes := [], ecallCause := 11 }

/-- `RESET_PC`: open, a multiple of 4 (spec/10_state.md R39, spec/70_reset_and_hazards.md R321).
DESIGN CHOICE, unsafe: log entry 3. -/
def Config.resetPc : Word := 0x00001000

/-- `X_RESET[1..31]`: any values (spec/10_state.md R39, U1). DESIGN CHOICE, unsafe: log entry 1. -/
def Config.xReset : Vector Word 31 := Vector.replicate 31 0

/-- `CYCLE0`: any value (spec/10_state.md R39). DESIGN CHOICE, unsafe: log entry 2. -/
def Config.cycle0 : BitVec 64 := 0

/-- `TIME0`: any value (spec/10_state.md R39). DESIGN CHOICE, unsafe: log entry 2. -/
def Config.time0 : BitVec 64 := 0

/-- `INSTRET0`: any value (spec/10_state.md R39). DESIGN CHOICE, unsafe: log entry 2. -/
def Config.instret0 : BitVec 64 := 0

/-- FREE VALUE (U8, spec/70_reset_and_hazards.md R322): the byte of valid memory at this address that
neither the boot image nor a store has given, fixed at reset. Log entry 4. -/
opaque Config.memReset : Nat → Byte

/-- FREE VALUE (U6, spec/10_state.md R30): the 64-bit cycle counter as the read of step `n` finds it,
given its value at the last read. Log entry 7. -/
opaque Config.cycleDraw : Nat → BitVec 64 → BitVec 64

/-- FREE VALUE (U6, spec/10_state.md R31): the 64-bit time counter, likewise. Log entry 7. -/
opaque Config.timeDraw : Nat → BitVec 64 → BitVec 64

/-- FREE VALUE (U3, spec/48_fence.md R245): whether the fetch of step `n` sees the old one of the two
bytes at an unsynced address. Log entry 9. -/
opaque Config.fetchSeesOld : Nat → Nat → Bool

/-- FREE VALUE (U2, spec/20_memory.md R54): whether the misaligned access of step `n` raises, under
`either`. Log entry 10. -/
opaque Config.misalignedTraps : Nat → Bool

/-- How a CSR that a platform adds behaves (spec/10_state.md R33, spec/93_implementation_defined.md U9): its
read and write functions (log entry 6). -/
inductive CsrBehaviour where
  /-- A read gives the value held, a write replaces it, and neither has a side effect. -/
  | storage
  /-- The read and write functions are the platform's: the free values below. -/
  | custom
  deriving DecidableEq, Repr

/-- FREE VALUE (U9, spec/10_state.md R33): the value that step `n`'s read of custom CSR `c` gives, from the
value it holds. Log entry 6. -/
opaque Config.csrReadValue : (n : Nat) → (c : CsrNum) → (held : Word) → Word

/-- FREE VALUE (U9, spec/42_system.md R160): the side effect of step `n`'s read of custom CSR `c`: what custom
CSR `d`, which held `held`, holds afterwards; `c` itself is one of the `d`. Log entry 6. -/
opaque Config.csrReadEffect : (n : Nat) → (c d : CsrNum) → (held : Word) → Word

/-- FREE VALUE (U9, spec/10_state.md R33): what custom CSR `c`, which held `held`, holds after step `n`'s
write of `v` to it. Log entry 6. -/
opaque Config.csrWriteValue : (n : Nat) → (c : CsrNum) → (held v : Word) → Word

/-- FREE VALUE (U9, spec/42_system.md R161): the side effect of step `n`'s write of `v` to custom CSR `c`: what
another custom CSR `d`, which held `held`, holds afterwards. Log entry 6. -/
opaque Config.csrWriteEffect : (n : Nat) → (c : CsrNum) → (v : Word) → (d : CsrNum) → (held : Word) → Word

/-- The optional law `cycle_monotone` of spec/92_eei_decisions.md D15, off by default: a hypothesis a
claim may take, proved of nothing here (log entry 17). -/
def Config.CycleMonotone : Prop := ∀ n v, v.toNat ≤ (Config.cycleDraw n v).toNat

/-- The optional law `time_monotone` of spec/92_eei_decisions.md D15, off by default (log entry 17). -/
def Config.TimeMonotone : Prop := ∀ n v, v.toNat ≤ (Config.timeDraw n v).toNat

end Sys2Proof
end

