-- ==== Sys2Proof/Machine/State.lean ====
section
/-! DEFINITION. The state of the hart (spec/10_state.md R38, R39), the trap record
(spec/60_exceptions.md R290), and the reasons a step can stop. -/

namespace Sys2Proof.Machine

/-- The nine exceptions of spec/60_exceptions.md R280, by the names the spec gives them. -/
inductive Cause where
  | instructionAddressMisaligned
  | instructionAccessFault
  | illegalInstruction
  | breakpoint
  | loadAddressMisaligned
  | loadAccessFault
  | storeAddressMisaligned
  | storeAccessFault
  | environmentCall
  deriving DecidableEq, Repr

/-- What the environment receives when a run ends (spec/60_exceptions.md R290): the cause, its code,
the address of the raising instruction, and the value the exception carries. -/
structure TrapRecord where
  cause : Cause
  code  : Nat
  epc   : Word
  info  : Word
  deriving DecidableEq, Repr

/-- A CSR a platform adds to `CSR_SET` (spec/10_state.md R33): the right to write it or not, which read and
write functions it has, and the value it holds (log entry 6). -/
structure CsrCell where
  writable  : Bool
  behaviour : CsrBehaviour
  value     : Word
  deriving DecidableEq, Repr

/-- Memory as the bytes that the boot image or a store has given, addresses strictly rising
(spec/10_state.md R35). A byte not listed holds the free value of log entry 4. -/
abbrev Memory := List Host.Cell

/-- The bytes stored to since the last FENCE.I, addresses strictly rising, each with what memory listed
there when the set was last empty (spec/10_state.md R36, spec/48_fence.md R245). -/
abbrev Unsynced := List (Nat × Option Byte)

/-- The complete state of one hart (spec/10_state.md R38), with the trap record, the platform's CSRs and
parameters, and the model's own index of free values. -/
structure State where
  /-- `x1` to `x31`, `x1` first; `x0` is a constant and has no place here (R21, R38). -/
  x : Vector Word 31
  /-- The address of the instruction being executed (R24). -/
  pc : Word
  /-- `cycle_ctr` as of its last sample (R30, log entry 7). -/
  cycleCtr : BitVec 64
  /-- `time_ctr` as of its last sample (R31, log entry 7). -/
  timeCtr : BitVec 64
  /-- `instret_ctr`, exact (R32). -/
  instretCtr : BitVec 64
  /-- `unsynced`, with the old bytes (R36, R245). -/
  unsynced : Unsynced
  /-- `mem` (R35, R38). -/
  mem : Memory
  /-- The CSRs of an extended `CSR_SET` (R33); none at reset. -/
  extCsrs : List (CsrNum × CsrCell)
  /-- The platform's parameters (spec/00_scope.md R7); no step changes them (log entry 5). -/
  platform : Platform
  /-- The record of the trap that ended the run, or none while the hart runs (spec/60_exceptions.md
  R290, log entry 11). -/
  trap : Option TrapRecord
  /-- The model's own: the index of the free values the next step uses (log entry 8). -/
  draws : Nat
  deriving DecidableEq, Repr

/-- Why a step ends in no state. -/
inductive Fault where
  /-- Raised by step alone, at a hart that a trap has stopped: the run ended with the record in the
  state, and the hardware has no next state (spec/60_exceptions.md R290, U14). Safe: the spec ends the
  run there. -/
  | runEnded
  deriving DecidableEq, Repr

/-- Why the model gives an instruction no meaning. -/
inductive Refusal where
  /-- Raised by an arm of exec whose instruction has no meaning in this model. No arm raises it: all 47
  instructions are modelled. Safe: it claims nothing. -/
  | notModelled (mnemonic : String)
  deriving DecidableEq, Repr

/-- The hart right after reset (spec/10_state.md R39, spec/70_reset_and_hazards.md R320, R321). The boot
image is loaded from outside (R322, log entry 13). The register and counter values and the address are
the model's (log entries 1, 2, 3). -/
def State.reset : State :=
  { x := Config.xReset
    pc := Config.resetPc
    cycleCtr := Config.cycle0
    timeCtr := Config.time0
    instretCtr := Config.instret0
    unsynced := []
    mem := []
    extCsrs := []
    platform := Config.defaultPlatform
    trap := none
    draws := 0 }

end Sys2Proof.Machine
end

