-- ==== Sys2Proof/Machine/Flags.lean ====
section
/-! DEFINITION. There are no condition flags (spec/10_state.md R28): a comparison writes 0 or 1 into a
general register or decides a branch. These are the comparisons. -/

namespace Sys2Proof.Machine

/-- `a <s b`: both operands read as two's-complement signed numbers (spec/00_scope.md R9). -/
def lessSigned (a b : Word) : Bool := decide (a.toInt < b.toInt)

/-- `a <u b`: both operands read as unsigned numbers (spec/00_scope.md R9). -/
def lessUnsigned (a b : Word) : Bool := decide (a.toNat < b.toNat)

/-- The result of a set-less-than: 0x00000001 or 0x00000000 (spec/40_op_imm.md R121). -/
def boolWord (b : Bool) : Word := if b then 1#32 else 0#32

end Sys2Proof.Machine
end

