-- ==== Sys2Proof/Syntax.lean ====
section
/-! DEFINITION. The 47 instructions of spec/30_encoding.md R95, one constructor each, operands in the
order of the spec's syntax lines (R101); and the pseudo-ops of spec/49_pseudo_ops.md, which are
assembler spellings and no instructions of their own. -/

namespace Sys2Proof

/-- One side of a FENCE: which of the four kinds of operation are in the set, device input, device
output, memory read, memory write (spec/30_encoding.md R88, spec/48_fence.md R241). -/
structure FenceSet where
  i : Bool
  o : Bool
  r : Bool
  w : Bool
  deriving DecidableEq, Repr

/-- An instruction. `imm12` is the signed 12-bit immediate, `imm5` an unsigned shift amount or CSR
literal, `imm20` the 20-bit field, `imm13` and `imm21` signed byte offsets whose bit 0 is 0
(spec/00_scope.md R12). -/
inductive Instr where
  | addi (rd rs1 : Reg) (imm12 : BitVec 12)
  | slti (rd rs1 : Reg) (imm12 : BitVec 12)
  | sltiu (rd rs1 : Reg) (imm12 : BitVec 12)
  | xori (rd rs1 : Reg) (imm12 : BitVec 12)
  | ori (rd rs1 : Reg) (imm12 : BitVec 12)
  | andi (rd rs1 : Reg) (imm12 : BitVec 12)
  | slli (rd rs1 : Reg) (imm5 : BitVec 5)
  | srli (rd rs1 : Reg) (imm5 : BitVec 5)
  | srai (rd rs1 : Reg) (imm5 : BitVec 5)
  | jalr (rd rs1 : Reg) (imm12 : BitVec 12)
  | lw (rd rs1 : Reg) (imm12 : BitVec 12)
  | lh (rd rs1 : Reg) (imm12 : BitVec 12)
  | lhu (rd rs1 : Reg) (imm12 : BitVec 12)
  | lb (rd rs1 : Reg) (imm12 : BitVec 12)
  | lbu (rd rs1 : Reg) (imm12 : BitVec 12)
  | csrrw (rd : Reg) (csr : CsrNum) (rs1 : Reg)
  | csrrs (rd : Reg) (csr : CsrNum) (rs1 : Reg)
  | csrrc (rd : Reg) (csr : CsrNum) (rs1 : Reg)
  | csrrwi (rd : Reg) (csr : CsrNum) (imm5 : BitVec 5)
  | csrrsi (rd : Reg) (csr : CsrNum) (imm5 : BitVec 5)
  | csrrci (rd : Reg) (csr : CsrNum) (imm5 : BitVec 5)
  | ecall
  | ebreak
  | lui (rd : Reg) (imm20 : BitVec 20)
  | auipc (rd : Reg) (imm20 : BitVec 20)
  | add (rd rs1 rs2 : Reg)
  | sub (rd rs1 rs2 : Reg)
  | slt (rd rs1 rs2 : Reg)
  | sltu (rd rs1 rs2 : Reg)
  | and (rd rs1 rs2 : Reg)
  | or (rd rs1 rs2 : Reg)
  | xor (rd rs1 rs2 : Reg)
  | sll (rd rs1 rs2 : Reg)
  | srl (rd rs1 rs2 : Reg)
  | sra (rd rs1 rs2 : Reg)
  | jal (rd : Reg) (imm21 : BitVec 21)
  | beq (rs1 rs2 : Reg) (imm13 : BitVec 13)
  | bne (rs1 rs2 : Reg) (imm13 : BitVec 13)
  | blt (rs1 rs2 : Reg) (imm13 : BitVec 13)
  | bltu (rs1 rs2 : Reg) (imm13 : BitVec 13)
  | bge (rs1 rs2 : Reg) (imm13 : BitVec 13)
  | bgeu (rs1 rs2 : Reg) (imm13 : BitVec 13)
  | sw (rs2 rs1 : Reg) (imm12 : BitVec 12)
  | sh (rs2 rs1 : Reg) (imm12 : BitVec 12)
  | sb (rs2 rs1 : Reg) (imm12 : BitVec 12)
  | fence (pred succ : FenceSet)
  | fenceI
  deriving DecidableEq, Repr

/-- The 22 pseudo-op mnemonics of spec/49_pseudo_ops.md R250 to R269. -/
inductive Pseudo where
  | seqz (rd rs : Reg)
  | not (rd rs : Reg)
  | snez (rd rs : Reg)
  | nop
  | j (imm21 : BitVec 21)
  | bgt (r1 r2 : Reg) (imm13 : BitVec 13)
  | bgtu (r1 r2 : Reg) (imm13 : BitVec 13)
  | ble (r1 r2 : Reg) (imm13 : BitVec 13)
  | bleu (r1 r2 : Reg) (imm13 : BitVec 13)
  | csrr (rd : Reg) (csr : CsrNum)
  | csrw (csr : CsrNum) (rs1 : Reg)
  | csrwi (csr : CsrNum) (imm5 : BitVec 5)
  | csrs (csr : CsrNum) (rs1 : Reg)
  | csrsi (csr : CsrNum) (imm5 : BitVec 5)
  | csrc (csr : CsrNum) (rs1 : Reg)
  | csrci (csr : CsrNum) (imm5 : BitVec 5)
  | rdcycle (rd : Reg)
  | rdcycleh (rd : Reg)
  | rdtime (rd : Reg)
  | rdtimeh (rd : Reg)
  | rdinstret (rd : Reg)
  | rdinstreth (rd : Reg)
  deriving DecidableEq, Repr

end Sys2Proof
end

