-- ==== Sys2Proof/WellFormed.lean ====
section
/-! DEFINITION. Which terms of `Instr` an instruction word can hold: the byte offsets of JAL and of
the branches are even (spec/00_scope.md R12, spec/30_encoding.md R85, R86). Every other operand takes
every value of its width. -/

namespace Sys2Proof

/-- A byte offset whose bit 0, which the formats do not store, is 0 (spec/30_encoding.md R85, R86). -/
def evenOffset {n : Nat} (imm : BitVec n) : Bool := !imm.getLsbD 0

/-- The instruction has an encoding. -/
def WellFormed : Instr → Bool
  | .jal _ imm21 => evenOffset imm21
  | .beq _ _ imm13 => evenOffset imm13
  | .bne _ _ imm13 => evenOffset imm13
  | .blt _ _ imm13 => evenOffset imm13
  | .bltu _ _ imm13 => evenOffset imm13
  | .bge _ _ imm13 => evenOffset imm13
  | .bgeu _ _ imm13 => evenOffset imm13
  | .addi _ _ _ | .slti _ _ _ | .sltiu _ _ _ | .xori _ _ _ | .ori _ _ _ | .andi _ _ _ => true
  | .slli _ _ _ | .srli _ _ _ | .srai _ _ _ => true
  | .jalr _ _ _ | .lw _ _ _ | .lh _ _ _ | .lhu _ _ _ | .lb _ _ _ | .lbu _ _ _ => true
  | .csrrw _ _ _ | .csrrs _ _ _ | .csrrc _ _ _ | .csrrwi _ _ _ | .csrrsi _ _ _ | .csrrci _ _ _ => true
  | .ecall | .ebreak | .lui _ _ | .auipc _ _ => true
  | .add _ _ _ | .sub _ _ _ | .slt _ _ _ | .sltu _ _ _ | .and _ _ _ | .or _ _ _ | .xor _ _ _ => true
  | .sll _ _ _ | .srl _ _ _ | .sra _ _ _ => true
  | .sw _ _ _ | .sh _ _ _ | .sb _ _ _ | .fence _ _ | .fenceI => true

end Sys2Proof
end

