-- ==== Sys2Proof/Decode.lean ====
section
/-! DEFINITION. The instruction encoding of spec/30_encoding.md: the fields of a word, the 47 rows of
R95 with their match and mask, the decoder (R91), and the encoder written from the same formats
(R81 to R89). All encoding numbers are the spec's (R92 to R95). -/

namespace Sys2Proof

/-! ## Byte order (spec/20_memory.md R50) -/

/-- Two bytes as a value, the byte at the lower address least significant. -/
def leHalf (b0 b1 : Byte) : BitVec 16 := b1 ++ b0

/-- Four bytes as a value, the byte at the lowest address least significant. -/
def leWord (b0 b1 b2 b3 : Byte) : Word := b3 ++ b2 ++ b1 ++ b0

/-- The `n` low bytes of a value in the order of their addresses, lowest first. -/
def leBytes (v : Word) : Nat → List Byte
  | 0 => []
  | n + 1 => v.extractLsb' 0 8 :: leBytes (v >>> 8) n

/-! ## Fields of an instruction word -/

/-- `rd`, `inst[11:7]` (spec/00_scope.md R11). -/
def rdOf (w : Word) : Reg := w.extractLsb' 7 5

/-- `rs1`, `inst[19:15]` (spec/00_scope.md R11). -/
def rs1Of (w : Word) : Reg := w.extractLsb' 15 5

/-- `rs2`, `inst[24:20]` (spec/00_scope.md R11). -/
def rs2Of (w : Word) : Reg := w.extractLsb' 20 5

/-- The I immediate, `inst[31:20]` (spec/30_encoding.md R81). -/
def immI (w : Word) : BitVec 12 := w.extractLsb' 20 12

/-- The shift amount, `inst[24:20]` (spec/30_encoding.md R82). -/
def imm5I (w : Word) : BitVec 5 := w.extractLsb' 20 5

/-- The U immediate field, `inst[31:12]` (spec/30_encoding.md R83). -/
def immU (w : Word) : BitVec 20 := w.extractLsb' 12 20

/-- `imm21 = {inst[31], inst[19:12], inst[20], inst[30:21], 0}` (spec/30_encoding.md R85). -/
def immJ (w : Word) : BitVec 21 :=
  w.extractLsb' 31 1 ++ w.extractLsb' 12 8 ++ w.extractLsb' 20 1 ++ w.extractLsb' 21 10 ++ 0#1

/-- `imm13 = {inst[31], inst[7], inst[30:25], inst[11:8], 0}` (spec/30_encoding.md R86). -/
def immB (w : Word) : BitVec 13 :=
  w.extractLsb' 31 1 ++ w.extractLsb' 7 1 ++ w.extractLsb' 25 6 ++ w.extractLsb' 8 4 ++ 0#1

/-- `imm12 = {inst[31:25], inst[11:7]}` (spec/30_encoding.md R87). -/
def immS (w : Word) : BitVec 12 := w.extractLsb' 25 7 ++ w.extractLsb' 7 5

/-- The CSR number, `inst[31:20]` (spec/30_encoding.md R89). -/
def csrOf (w : Word) : CsrNum := w.extractLsb' 20 12

/-- The 5-bit literal of the CSR immediate forms, `inst[19:15]` (spec/30_encoding.md R89). -/
def uimm5Of (w : Word) : BitVec 5 := w.extractLsb' 15 5

/-- Predecessor flags `inst[27:24] = {PI, PO, PR, PW}` (spec/30_encoding.md R88). -/
def predOf (w : Word) : FenceSet :=
  { i := w.getLsbD 27, o := w.getLsbD 26, r := w.getLsbD 25, w := w.getLsbD 24 }

/-- Successor flags `inst[23:20] = {SI, SO, SR, SW}` (spec/30_encoding.md R88). -/
def succOf (w : Word) : FenceSet :=
  { i := w.getLsbD 23, o := w.getLsbD 22, r := w.getLsbD 21, w := w.getLsbD 20 }

/-! ## The opcode table -/

/-- One row of spec/30_encoding.md R95: the mnemonic, the value of the fixed bits, which bits are
fixed, and the instruction the other bits name. -/
structure Row where
  mnemonic : String
  pattern  : Word
  mask     : Word
  build    : Word → Instr

/-- `inst & mask = match` (spec/30_encoding.md R91). -/
def Row.accepts (r : Row) (w : Word) : Bool := w &&& r.mask == r.pattern

/-- Rows of spec/30_encoding.md R95 for OP-IMM, spec/40_op_imm.md. -/
def rowsOpImm : List Row :=
  [ ⟨"ADDI", 0x00000013#32, 0x0000707F#32, fun w => .addi (rdOf w) (rs1Of w) (immI w)⟩,
    ⟨"SLTI", 0x00002013#32, 0x0000707F#32, fun w => .slti (rdOf w) (rs1Of w) (immI w)⟩,
    ⟨"SLTIU", 0x00003013#32, 0x0000707F#32, fun w => .sltiu (rdOf w) (rs1Of w) (immI w)⟩,
    ⟨"XORI", 0x00004013#32, 0x0000707F#32, fun w => .xori (rdOf w) (rs1Of w) (immI w)⟩,
    ⟨"ORI", 0x00006013#32, 0x0000707F#32, fun w => .ori (rdOf w) (rs1Of w) (immI w)⟩,
    ⟨"ANDI", 0x00007013#32, 0x0000707F#32, fun w => .andi (rdOf w) (rs1Of w) (immI w)⟩,
    ⟨"SLLI", 0x00001013#32, 0xFE00707F#32, fun w => .slli (rdOf w) (rs1Of w) (imm5I w)⟩,
    ⟨"SRLI", 0x00005013#32, 0xFE00707F#32, fun w => .srli (rdOf w) (rs1Of w) (imm5I w)⟩,
    ⟨"SRAI", 0x40005013#32, 0xFE00707F#32, fun w => .srai (rdOf w) (rs1Of w) (imm5I w)⟩ ]

/-- Rows of spec/30_encoding.md R95 for JALR and LOAD, spec/41_jalr_loads.md. -/
def rowsJalrLoads : List Row :=
  [ ⟨"JALR", 0x00000067#32, 0x0000707F#32, fun w => .jalr (rdOf w) (rs1Of w) (immI w)⟩,
    ⟨"LW", 0x00002003#32, 0x0000707F#32, fun w => .lw (rdOf w) (rs1Of w) (immI w)⟩,
    ⟨"LH", 0x00001003#32, 0x0000707F#32, fun w => .lh (rdOf w) (rs1Of w) (immI w)⟩,
    ⟨"LHU", 0x00005003#32, 0x0000707F#32, fun w => .lhu (rdOf w) (rs1Of w) (immI w)⟩,
    ⟨"LB", 0x00000003#32, 0x0000707F#32, fun w => .lb (rdOf w) (rs1Of w) (immI w)⟩,
    ⟨"LBU", 0x00004003#32, 0x0000707F#32, fun w => .lbu (rdOf w) (rs1Of w) (immI w)⟩ ]

/-- Rows of spec/30_encoding.md R95 for SYSTEM, spec/42_system.md. -/
def rowsSystem : List Row :=
  [ ⟨"CSRRW", 0x00001073#32, 0x0000707F#32, fun w => .csrrw (rdOf w) (csrOf w) (rs1Of w)⟩,
    ⟨"CSRRS", 0x00002073#32, 0x0000707F#32, fun w => .csrrs (rdOf w) (csrOf w) (rs1Of w)⟩,
    ⟨"CSRRC", 0x00003073#32, 0x0000707F#32, fun w => .csrrc (rdOf w) (csrOf w) (rs1Of w)⟩,
    ⟨"CSRRWI", 0x00005073#32, 0x0000707F#32, fun w => .csrrwi (rdOf w) (csrOf w) (uimm5Of w)⟩,
    ⟨"CSRRSI", 0x00006073#32, 0x0000707F#32, fun w => .csrrsi (rdOf w) (csrOf w) (uimm5Of w)⟩,
    ⟨"CSRRCI", 0x00007073#32, 0x0000707F#32, fun w => .csrrci (rdOf w) (csrOf w) (uimm5Of w)⟩,
    ⟨"ECALL", 0x00000073#32, 0xFFFFFFFF#32, fun _ => .ecall⟩,
    ⟨"EBREAK", 0x00100073#32, 0xFFFFFFFF#32, fun _ => .ebreak⟩ ]

/-- Rows of spec/30_encoding.md R95 for LUI and AUIPC, spec/43_upper_imm.md. -/
def rowsUpperImm : List Row :=
  [ ⟨"LUI", 0x00000037#32, 0x0000007F#32, fun w => .lui (rdOf w) (immU w)⟩,
    ⟨"AUIPC", 0x00000017#32, 0x0000007F#32, fun w => .auipc (rdOf w) (immU w)⟩ ]

/-- Rows of spec/30_encoding.md R95 for OP, spec/44_register.md. -/
def rowsRegister : List Row :=
  [ ⟨"ADD", 0x00000033#32, 0xFE00707F#32, fun w => .add (rdOf w) (rs1Of w) (rs2Of w)⟩,
    ⟨"SUB", 0x40000033#32, 0xFE00707F#32, fun w => .sub (rdOf w) (rs1Of w) (rs2Of w)⟩,
    ⟨"SLT", 0x00002033#32, 0xFE00707F#32, fun w => .slt (rdOf w) (rs1Of w) (rs2Of w)⟩,
    ⟨"SLTU", 0x00003033#32, 0xFE00707F#32, fun w => .sltu (rdOf w) (rs1Of w) (rs2Of w)⟩,
    ⟨"AND", 0x00007033#32, 0xFE00707F#32, fun w => .and (rdOf w) (rs1Of w) (rs2Of w)⟩,
    ⟨"OR", 0x00006033#32, 0xFE00707F#32, fun w => .or (rdOf w) (rs1Of w) (rs2Of w)⟩,
    ⟨"XOR", 0x00004033#32, 0xFE00707F#32, fun w => .xor (rdOf w) (rs1Of w) (rs2Of w)⟩,
    ⟨"SLL", 0x00001033#32, 0xFE00707F#32, fun w => .sll (rdOf w) (rs1Of w) (rs2Of w)⟩,
    ⟨"SRL", 0x00005033#32, 0xFE00707F#32, fun w => .srl (rdOf w) (rs1Of w) (rs2Of w)⟩,
    ⟨"SRA", 0x40005033#32, 0xFE00707F#32, fun w => .sra (rdOf w) (rs1Of w) (rs2Of w)⟩ ]

/-- Rows of spec/30_encoding.md R95 for JAL, spec/45_jal.md. -/
def rowsJal : List Row :=
  [ ⟨"JAL", 0x0000006F#32, 0x0000007F#32, fun w => .jal (rdOf w) (immJ w)⟩ ]

/-- Rows of spec/30_encoding.md R95 for BRANCH, spec/46_branch.md. -/
def rowsBranch : List Row :=
  [ ⟨"BEQ", 0x00000063#32, 0x0000707F#32, fun w => .beq (rs1Of w) (rs2Of w) (immB w)⟩,
    ⟨"BNE", 0x00001063#32, 0x0000707F#32, fun w => .bne (rs1Of w) (rs2Of w) (immB w)⟩,
    ⟨"BLT", 0x00004063#32, 0x0000707F#32, fun w => .blt (rs1Of w) (rs2Of w) (immB w)⟩,
    ⟨"BLTU", 0x00006063#32, 0x0000707F#32, fun w => .bltu (rs1Of w) (rs2Of w) (immB w)⟩,
    ⟨"BGE", 0x00005063#32, 0x0000707F#32, fun w => .bge (rs1Of w) (rs2Of w) (immB w)⟩,
    ⟨"BGEU", 0x00007063#32, 0x0000707F#32, fun w => .bgeu (rs1Of w) (rs2Of w) (immB w)⟩ ]

/-- Rows of spec/30_encoding.md R95 for STORE, spec/47_store.md. -/
def rowsStore : List Row :=
  [ ⟨"SW", 0x00002023#32, 0x0000707F#32, fun w => .sw (rs2Of w) (rs1Of w) (immS w)⟩,
    ⟨"SH", 0x00001023#32, 0x0000707F#32, fun w => .sh (rs2Of w) (rs1Of w) (immS w)⟩,
    ⟨"SB", 0x00000023#32, 0x0000707F#32, fun w => .sb (rs2Of w) (rs1Of w) (immS w)⟩ ]

/-- Rows of spec/30_encoding.md R95 for MISC-MEM, spec/48_fence.md. -/
def rowsFence : List Row :=
  [ ⟨"FENCE", 0x0000000F#32, 0xF00FFFFF#32, fun w => .fence (predOf w) (succOf w)⟩,
    ⟨"FENCE.I", 0x0000100F#32, 0xFFFFFFFF#32, fun _ => .fenceI⟩ ]

/-- The 47 rows of spec/30_encoding.md R95, in the spec's order. -/
def rows : List Row :=
  rowsOpImm ++ rowsJalrLoads ++ rowsSystem ++ rowsUpperImm ++ rowsRegister ++ rowsJal ++ rowsBranch ++ rowsStore ++ rowsFence

/-! ## Decoding -/

/-- Why a decoder gives no instruction. -/
inductive Reject where
  /-- Fewer than four bytes are left: not one instruction (spec/30_encoding.md R80). -/
  | truncated
  /-- The word matches no row: an illegal instruction (spec/30_encoding.md R96, R97, R99, R100). -/
  | noRow (inst : Word)
  deriving DecidableEq, Repr

/-- The decode procedure of spec/30_encoding.md R91: the one row the word matches, or an illegal
instruction. It looks at nothing but the word. -/
def decode (w : Word) : Except Reject Instr :=
  match rows.find? (fun r => r.accepts w) with
  | some r => .ok (r.build w)
  | none => .error (.noRow w)

/-- The instruction at the head of a list of bytes, with the bytes after it (spec/30_encoding.md R80,
spec/20_memory.md R56). -/
def decodeBytes : List Byte → Except Reject (Instr × List Byte)
  | b0 :: b1 :: b2 :: b3 :: rest =>
    match decode (leWord b0 b1 b2 b3) with
    | .ok i => .ok (i, rest)
    | .error e => .error e
  | _ => .error .truncated

/-- The host's reading of an opcode-table word: the instruction is laid out in memory order and given
to the decoder; bits from `nbits` up are 0. -/
def decodeTableWord (nbits w : Nat) : Option Instr :=
  match decodeBytes (leBytes (BitVec.ofNat 32 (w % 2 ^ nbits)) 4) with
  | .ok (i, _) => some i
  | .error _ => none

/-! ## Encoding, from the formats R81 to R89 -/

/-- I format (spec/30_encoding.md R81); also the CSR forms (R89). -/
def encI (imm12 : BitVec 12) (rs1 : BitVec 5) (function : BitVec 3) (rd : Reg) (opcode : BitVec 7) : Word :=
  imm12 ++ rs1 ++ function ++ rd ++ opcode

/-- R format (spec/30_encoding.md R84); also the shift immediates, with the amount where `rs2` stands
(R82). -/
def encR (function2 : BitVec 7) (rs2 rs1 : BitVec 5) (function1 : BitVec 3) (rd : Reg) (opcode : BitVec 7) : Word :=
  function2 ++ rs2 ++ rs1 ++ function1 ++ rd ++ opcode

/-- U format (spec/30_encoding.md R83). -/
def encU (imm20 : BitVec 20) (rd : Reg) (opcode : BitVec 7) : Word := imm20 ++ rd ++ opcode

/-- J format (spec/30_encoding.md R85): imm21[20], imm21[10:1], imm21[11], imm21[19:12]. -/
def encJ (imm21 : BitVec 21) (rd : Reg) (opcode : BitVec 7) : Word :=
  imm21.extractLsb' 20 1 ++ imm21.extractLsb' 1 10 ++ imm21.extractLsb' 11 1 ++ imm21.extractLsb' 12 8
    ++ rd ++ opcode

/-- B format (spec/30_encoding.md R86): imm13[12], imm13[10:5], rs2, rs1, function, imm13[4:1],
imm13[11]. -/
def encB (imm13 : BitVec 13) (rs2 rs1 : Reg) (function : BitVec 3) (opcode : BitVec 7) : Word :=
  imm13.extractLsb' 12 1 ++ imm13.extractLsb' 5 6 ++ rs2 ++ rs1 ++ function ++ imm13.extractLsb' 1 4
    ++ imm13.extractLsb' 11 1 ++ opcode

/-- S format (spec/30_encoding.md R87): imm12[11:5], rs2, rs1, function, imm12[4:0]. -/
def encS (imm12 : BitVec 12) (rs2 rs1 : Reg) (function : BitVec 3) (opcode : BitVec 7) : Word :=
  imm12.extractLsb' 5 7 ++ rs2 ++ rs1 ++ function ++ imm12.extractLsb' 0 5 ++ opcode

/-- The four flag bits of one side of a FENCE, I first (spec/30_encoding.md R88). -/
def FenceSet.bits (f : FenceSet) : BitVec 4 :=
  BitVec.ofBool f.i ++ BitVec.ofBool f.o ++ BitVec.ofBool f.r ++ BitVec.ofBool f.w

/-- The instruction word, from the formats and the numbers of spec/30_encoding.md R92 to R94. -/
def encode : Instr → Word
  | .addi rd rs1 imm12 => encI imm12 rs1 0b000#3 rd 0b0010011#7
  | .slti rd rs1 imm12 => encI imm12 rs1 0b010#3 rd 0b0010011#7
  | .sltiu rd rs1 imm12 => encI imm12 rs1 0b011#3 rd 0b0010011#7
  | .xori rd rs1 imm12 => encI imm12 rs1 0b100#3 rd 0b0010011#7
  | .ori rd rs1 imm12 => encI imm12 rs1 0b110#3 rd 0b0010011#7
  | .andi rd rs1 imm12 => encI imm12 rs1 0b111#3 rd 0b0010011#7
  | .slli rd rs1 imm5 => encR 0b0000000#7 imm5 rs1 0b001#3 rd 0b0010011#7
  | .srli rd rs1 imm5 => encR 0b0000000#7 imm5 rs1 0b101#3 rd 0b0010011#7
  | .srai rd rs1 imm5 => encR 0b0100000#7 imm5 rs1 0b101#3 rd 0b0010011#7
  | .jalr rd rs1 imm12 => encI imm12 rs1 0b000#3 rd 0b1100111#7
  | .lw rd rs1 imm12 => encI imm12 rs1 0b010#3 rd 0b0000011#7
  | .lh rd rs1 imm12 => encI imm12 rs1 0b001#3 rd 0b0000011#7
  | .lhu rd rs1 imm12 => encI imm12 rs1 0b101#3 rd 0b0000011#7
  | .lb rd rs1 imm12 => encI imm12 rs1 0b000#3 rd 0b0000011#7
  | .lbu rd rs1 imm12 => encI imm12 rs1 0b100#3 rd 0b0000011#7
  | .csrrw rd csr rs1 => encI csr rs1 0b001#3 rd 0b1110011#7
  | .csrrs rd csr rs1 => encI csr rs1 0b010#3 rd 0b1110011#7
  | .csrrc rd csr rs1 => encI csr rs1 0b011#3 rd 0b1110011#7
  | .csrrwi rd csr imm5 => encI csr imm5 0b101#3 rd 0b1110011#7
  | .csrrsi rd csr imm5 => encI csr imm5 0b110#3 rd 0b1110011#7
  | .csrrci rd csr imm5 => encI csr imm5 0b111#3 rd 0b1110011#7
  | .ecall => encI 0#12 0#5 0b000#3 0#5 0b1110011#7
  | .ebreak => encI 1#12 0#5 0b000#3 0#5 0b1110011#7
  | .lui rd imm20 => encU imm20 rd 0b0110111#7
  | .auipc rd imm20 => encU imm20 rd 0b0010111#7
  | .add rd rs1 rs2 => encR 0b0000000#7 rs2 rs1 0b000#3 rd 0b0110011#7
  | .sub rd rs1 rs2 => encR 0b0100000#7 rs2 rs1 0b000#3 rd 0b0110011#7
  | .slt rd rs1 rs2 => encR 0b0000000#7 rs2 rs1 0b010#3 rd 0b0110011#7
  | .sltu rd rs1 rs2 => encR 0b0000000#7 rs2 rs1 0b011#3 rd 0b0110011#7
  | .and rd rs1 rs2 => encR 0b0000000#7 rs2 rs1 0b111#3 rd 0b0110011#7
  | .or rd rs1 rs2 => encR 0b0000000#7 rs2 rs1 0b110#3 rd 0b0110011#7
  | .xor rd rs1 rs2 => encR 0b0000000#7 rs2 rs1 0b100#3 rd 0b0110011#7
  | .sll rd rs1 rs2 => encR 0b0000000#7 rs2 rs1 0b001#3 rd 0b0110011#7
  | .srl rd rs1 rs2 => encR 0b0000000#7 rs2 rs1 0b101#3 rd 0b0110011#7
  | .sra rd rs1 rs2 => encR 0b0100000#7 rs2 rs1 0b101#3 rd 0b0110011#7
  | .jal rd imm21 => encJ imm21 rd 0b1101111#7
  | .beq rs1 rs2 imm13 => encB imm13 rs2 rs1 0b000#3 0b1100011#7
  | .bne rs1 rs2 imm13 => encB imm13 rs2 rs1 0b001#3 0b1100011#7
  | .blt rs1 rs2 imm13 => encB imm13 rs2 rs1 0b100#3 0b1100011#7
  | .bltu rs1 rs2 imm13 => encB imm13 rs2 rs1 0b110#3 0b1100011#7
  | .bge rs1 rs2 imm13 => encB imm13 rs2 rs1 0b101#3 0b1100011#7
  | .bgeu rs1 rs2 imm13 => encB imm13 rs2 rs1 0b111#3 0b1100011#7
  | .sw rs2 rs1 imm12 => encS imm12 rs2 rs1 0b010#3 0b0100011#7
  | .sh rs2 rs1 imm12 => encS imm12 rs2 rs1 0b001#3 0b0100011#7
  | .sb rs2 rs1 imm12 => encS imm12 rs2 rs1 0b000#3 0b0100011#7
  | .fence pred succ => encI (0#4 ++ pred.bits ++ succ.bits) 0#5 0b000#3 0#5 0b0001111#7
  | .fenceI => encI 0#12 0#5 0b001#3 0#5 0b0001111#7

/-- The bytes of an instruction in the order of their addresses (spec/20_memory.md R50). -/
def encodeBytes (i : Instr) : List Byte := leBytes (encode i) 4

end Sys2Proof
end

