-- ==== Sys2Proof/Machine/Operands.lean ====
section
/-! DEFINITION. The value each operand form stands for (spec/30_encoding.md R90), and the CSR numbers
of the counters (spec/10_state.md R29). -/

namespace Sys2Proof.Machine

/-- `sext_32(imm12)`, -2048 to 2047 (spec/30_encoding.md R81, R87, R90). -/
def sext12 (imm12 : BitVec 12) : Word := imm12.signExtend 32

/-- `sext_32(imm13)`, the byte offset of a branch (spec/30_encoding.md R86). -/
def sext13 (imm13 : BitVec 13) : Word := imm13.signExtend 32

/-- `sext_32(imm21)`, the byte offset of JAL (spec/30_encoding.md R85). -/
def sext21 (imm21 : BitVec 21) : Word := imm21.signExtend 32

/-- `zext_32` of a 5-bit literal: a shift amount or a CSR immediate (spec/30_encoding.md R82, R89). -/
def zext5 (imm5 : BitVec 5) : Word := imm5.setWidth 32

/-- `{inst[31:12], 000000000000}` (spec/30_encoding.md R83). -/
def upper20 (imm20 : BitVec 20) : Word := imm20 ++ 0#12

/-- The shift amount of SLL, SRL, SRA: only bits 4:0 of the register (spec/44_register.md R197). -/
def shiftAmount (v : Word) : Nat := (v &&& 0x1F#32).toNat

/-- `sext_32` of a byte (spec/41_jalr_loads.md R145). -/
def sextByte (b : Byte) : Word := b.signExtend 32

/-- `zext_32` of a byte (spec/41_jalr_loads.md R146). -/
def zextByte (b : Byte) : Word := b.setWidth 32

/-- `sext_32` of a halfword (spec/41_jalr_loads.md R143). -/
def sextHalf (h : BitVec 16) : Word := h.signExtend 32

/-- `zext_32` of a halfword (spec/41_jalr_loads.md R144). -/
def zextHalf (h : BitVec 16) : Word := h.setWidth 32

/-- Bits 31:0 of a counter (spec/10_state.md R29). -/
def lowHalf (c : BitVec 64) : Word := c.extractLsb' 0 32

/-- Bits 63:32 of a counter (spec/10_state.md R29). -/
def highHalf (c : BitVec 64) : Word := c.extractLsb' 32 32

/-- The CSR `cycle` (spec/10_state.md R29). -/
def csrCycle : CsrNum := 0xC00#12

/-- The CSR `time` (spec/10_state.md R29). -/
def csrTime : CsrNum := 0xC01#12

/-- The CSR `instret` (spec/10_state.md R29). -/
def csrInstret : CsrNum := 0xC02#12

/-- The CSR `cycleh` (spec/10_state.md R29). -/
def csrCycleh : CsrNum := 0xC80#12

/-- The CSR `timeh` (spec/10_state.md R29). -/
def csrTimeh : CsrNum := 0xC81#12

/-- The CSR `instreth` (spec/10_state.md R29). -/
def csrInstreth : CsrNum := 0xC82#12

end Sys2Proof.Machine
end

