-- ==== Sys2Proof/Machine/Ops.lean ====
section
/-! DEFINITION. The named operations of the machine: registers, memory, the fetch view, CSRs, the end of
an instruction, and taking an exception. -/

namespace Sys2Proof.Machine

/-- What a meaning or a step answers. -/
abbrev Result := Host.Outcome State Fault Refusal

/-! ## Data kept by address, in one canonical form -/

/-- The addresses strictly rise. -/
abbrev Rising {α : Type} (l : List (Nat × α)) : Prop := l.Pairwise (fun c d => c.1 < d.1)

/-- Every address lies in the one space of 2^32 bytes (spec/10_state.md R35). -/
abbrev InSpace {α : Type} (l : List (Nat × α)) : Prop := ∀ c ∈ l, c.1 < 2 ^ 32

/-- What a list keeps at an address, if it keeps anything. -/
def findAt {α : Type} (a : Nat) : List (Nat × α) → Option α
  | [] => none
  | (b, v) :: r => if a = b then some v else findAt a r

/-- The list with `v` kept at `a`, addresses still rising. -/
def putAt {α : Type} (a : Nat) (v : α) : List (Nat × α) → List (Nat × α)
  | [] => [(a, v)]
  | (b, w) :: r =>
    if a < b then (a, v) :: (b, w) :: r
    else if a = b then (a, v) :: r
    else (b, w) :: putAt a v r

/-- The list with nothing kept at `a`. -/
def dropAt {α : Type} (a : Nat) : List (Nat × α) → List (Nat × α)
  | [] => []
  | (b, w) :: r => if a = b then dropAt a r else (b, w) :: dropAt a r

/-- The canonical form of memory: addresses strictly rising, all in the space. An unlisted address reads
as no byte at this layer, so no entry can equal it (log entry 4). -/
abbrev Memory.wf (m : Memory) : Prop := Rising m ∧ InSpace m

/-- The canonical form of the unsynced set. -/
abbrev Unsynced.wf (u : Unsynced) : Prop := Rising u ∧ InSpace u

/-! ## General registers -/

/-- Register numbers 1 to 31 have the places 0 to 30. -/
theorem place_lt (i : Reg) : i.toNat - 1 < 31 := by have := i.isLt; omega

/-- `x[i]`: register `i`, with `x[0]` the constant 0 (spec/10_state.md R20, R21). -/
def State.reg (s : State) (i : Reg) : Word :=
  if i = 0#5 then 0#32 else s.x[i.toNat - 1]'(place_lt i)

/-- `x[i] <- v`: a write to `x0` is discarded (spec/10_state.md R21). -/
def State.setReg (s : State) (i : Reg) (v : Word) : State :=
  { s with x := if i = 0#5 then s.x else s.x.set (i.toNat - 1) v (place_lt i) }

/-! ## Memory (spec/20_memory.md) -/

/-- The byte at an address: the listed one, or the free value of U8 where neither the image nor a store
has given one (log entry 4). -/
def State.byteAt (s : State) (a : Word) : Byte := (findAt a.toNat s.mem).getD (Config.memReset a.toNat)

/-- `MemRead(a, 2)`, little-endian, addresses modulo 2^32 (spec/20_memory.md R50). -/
def State.halfAt (s : State) (a : Word) : BitVec 16 := leHalf (s.byteAt a) (s.byteAt (a + 1#32))

/-- `MemRead(a, 4)`, little-endian, addresses modulo 2^32 (spec/20_memory.md R50). -/
def State.wordAt (s : State) (a : Word) : Word :=
  leWord (s.byteAt a) (s.byteAt (a + 1#32)) (s.byteAt (a + 2#32)) (s.byteAt (a + 3#32))

/-- Memory with the bytes stored from `a` up, addresses modulo 2^32 (spec/20_memory.md R50). -/
def Memory.putBytes (m : Memory) (a : Word) : List Byte → Memory
  | [] => m
  | b :: bs => Memory.putBytes (putAt a.toNat b m) (a + 1#32) bs

/-- The unsynced set with `n` addresses from `a` up added. An address that is already in it keeps its old
byte, the one from when the set was last empty (spec/47_store.md R233, spec/48_fence.md R245). -/
def Unsynced.mark (m : Memory) (u : Unsynced) (a : Word) : Nat → Unsynced
  | 0 => u
  | n + 1 =>
    Unsynced.mark m (if (findAt a.toNat u).isSome then u else putAt a.toNat (findAt a.toNat m) u) (a + 1#32) n

/-- The unsynced set without the `n` addresses from `a` up. -/
def Unsynced.unmark (u : Unsynced) (a : Word) : Nat → Unsynced
  | 0 => u
  | n + 1 => Unsynced.unmark (dropAt a.toNat u) (a + 1#32) n

/-- `MemWrite` by the hart: the bytes reach memory and their addresses join `unsynced`
(spec/20_memory.md R50, spec/47_store.md R233). -/
def State.storeBytes (s : State) (a : Word) (bs : List Byte) : State :=
  { s with mem := s.mem.putBytes a bs, unsynced := Unsynced.mark s.mem s.unsynced a bs.length }

/-- Bytes placed by the environment: no store by the hart, so visible to fetch at once
(spec/70_reset_and_hazards.md R322). -/
def State.placeBytes (s : State) (a : Word) (bs : List Byte) : State :=
  { s with mem := s.mem.putBytes a bs, unsynced := s.unsynced.unmark a bs.length }

/-- The effective address `x[rs1] + sext_32(imm12)`, modulo 2^32 (spec/20_memory.md R52). -/
def State.effAddr (s : State) (rs1 : Reg) (imm12 : BitVec 12) : Word := s.reg rs1 + sext12 imm12

/-- `MEM_VALID(b, kind)`: no hole of the platform covers the byte (spec/20_memory.md R55). -/
def memValid (p : Platform) (b : Nat) (kind : AccessKind) : Bool :=
  !p.holes.any (fun h => h.kind == kind && (decide (h.first ≤ b) && decide (b ≤ h.last)))

/-- The addresses of the `n` bytes of an access at `a`, modulo 2^32 (spec/20_memory.md R50). -/
def spanOf (a : Word) : Nat → List Nat
  | 0 => []
  | n + 1 => a.toNat :: spanOf (a + 1#32) n

/-- Every byte of the access exists for its kind (spec/20_memory.md R55). -/
def State.validSpan (s : State) (kind : AccessKind) (a : Word) (n : Nat) : Bool :=
  (spanOf a n).all (fun b => memValid s.platform b kind)

/-- A data access of `n` bytes at `a` that is not naturally aligned (spec/20_memory.md R53). -/
def misaligned (a : Word) (n : Nat) : Bool := a.toNat % n != 0

/-- Whether a misaligned access raises, by `MISALIGNED_DATA`; under `either` a free choice of the access
(spec/20_memory.md R54, log entry 10). -/
def State.misalignedRaises (s : State) : Bool :=
  match s.platform.misaligned with
  | .split => false
  | .trap => true
  | .either => Config.misalignedTraps s.draws

/-- The exception a data access raises, if any: misaligned ranks above access fault, and both are found
before any byte is read or written (spec/60_exceptions.md R292, spec/20_memory.md R54, R55). -/
def State.accessCause (s : State) (kind : AccessKind) (misalignedCause faultCause : Cause) (a : Word) (n : Nat) :
    Option Cause :=
  if misaligned a n && s.misalignedRaises then some misalignedCause
  else if s.validSpan kind a n then none
  else some faultCause

/-! ## Traps (spec/60_exceptions.md) -/

/-- The numeric codes of spec/60_exceptions.md R280. -/
def Cause.code (p : Platform) : Cause → Nat
  | .instructionAddressMisaligned => 0
  | .instructionAccessFault => 1
  | .illegalInstruction => 2
  | .breakpoint => 3
  | .loadAddressMisaligned => 4
  | .loadAccessFault => 5
  | .storeAddressMisaligned => 6
  | .storeAccessFault => 7
  | .environmentCall => p.ecallCause

/-- Taking an exception (spec/60_exceptions.md R290): the hart stops with the record (cause, code, epc,
info), `pc` stays at the raising instruction, and every register, memory byte, `unsynced` and the
instret counter are as the previous instruction left them. Nothing is saved inside the machine: there is
no vector, no handler and no saved-state register. The index of free values moves on (log entry 8). -/
def State.takeTrap (s : State) (cause : Cause) (info : Word) : State :=
  { s with
    trap := some { cause := cause, code := cause.code s.platform, epc := s.pc, info := info }
    draws := s.draws + 1 }

/-- The instruction raises: none of its writes happen (spec/60_exceptions.md R280). -/
def State.raise (s : State) (cause : Cause) (info : Word) : Result := .next (s.takeTrap cause info)

/-- There is no return-from-trap instruction (spec/60_exceptions.md R293). What lets a run go on is the
environment's own step (R294): a function from the record and the state, a parameter of whoever uses it.
Nothing in the machine calls this (log entry 15). -/
def State.resume (env : TrapRecord → State → State) (s : State) : State :=
  match s.trap with
  | none => s
  | some r => { env r s with trap := none }

/-! ## The end of an instruction -/

/-- Step 4 of spec/10_state.md R25: the instruction retires, `pc` becomes the next instruction's address and
instret counts it, modulo 2^64 (R32). The index of free values moves on (log entry 8). -/
def State.retire (s : State) (next : Word) : State :=
  { s with pc := next, instretCtr := s.instretCtr + 1#64, draws := s.draws + 1 }

/-- Every instruction that does not transfer control: `pc <- pc + 4`, modulo 2^32 (spec/10_state.md R26). -/
def State.finish (s : State) : Result := .next (s.retire (s.pc + 4#32))

/-- `t[1:0] = 0`: an instruction address is a multiple of 4 (spec/20_memory.md R56). -/
def aligned4 (t : Word) : Bool := t.extractLsb' 0 2 == 0#2

/-- A taken branch: the misaligned-target exception belongs to the branch (spec/46_branch.md R215). -/
def State.goTo (s : State) (target : Word) : Result :=
  if aligned4 target then .next (s.retire target) else s.raise .instructionAddressMisaligned target

/-- JAL and JALR: the link value `pc + 4` goes to `rd`, unless the target raises, which suppresses the link
write (spec/45_jal.md R210, spec/41_jalr_loads.md R140). -/
def State.goToLinking (s : State) (rd : Reg) (target : Word) : Result :=
  if aligned4 target then .next ((s.setReg rd (s.pc + 4#32)).retire target)
  else s.raise .instructionAddressMisaligned target

/-- The common part of a register-writing instruction that cannot raise. -/
def State.writeResult (s : State) (rd : Reg) (v : Word) : Result := (s.setReg rd v).finish

/-- The common part of the loads (spec/41_jalr_loads.md R141): `v` is the extended value of the `n` bytes at
`a`, written only when the access raises nothing. -/
def State.loadTo (s : State) (rd : Reg) (a : Word) (n : Nat) (v : Word) : Result :=
  match s.accessCause .load .loadAddressMisaligned .loadAccessFault a n with
  | some c => s.raise c a
  | none => s.writeResult rd v

/-- The common part of the stores (spec/47_store.md R233): the `n` low bytes of `v`, little-endian, written
only when the access raises nothing. -/
def State.storeFrom (s : State) (a : Word) (n : Nat) (v : Word) : Result :=
  match s.accessCause .store .storeAddressMisaligned .storeAccessFault a n with
  | some c => s.raise c a
  | none => (s.storeBytes a (leBytes v n)).finish

/-- The common part of the branches (spec/46_branch.md R215). -/
def State.branchIf (s : State) (taken : Bool) (imm13 : BitVec 13) : Result :=
  if taken then s.goTo (s.pc + sext13 imm13) else s.finish

/-! ## CSRs (spec/42_system.md R160, R161) -/

/-- The platform's cell of this number, the first one listed (spec/10_state.md R33). -/
def findCsr (c : CsrNum) : List (CsrNum × CsrCell) → Option CsrCell
  | [] => none
  | (d, cell) :: r => if c = d then some cell else findCsr c r

/-- The list with `v` in the platform's cell of this number. -/
def putCsr (c : CsrNum) (v : Word) : List (CsrNum × CsrCell) → List (CsrNum × CsrCell)
  | [] => []
  | (d, cell) :: r => if c = d then (d, { cell with value := v }) :: r else (d, cell) :: putCsr c v r

/-- The list with every custom CSR `d` that holds `w` left holding `f d w`: a side effect reaches the CSRs of
the platform that are not plain storage, and nothing else (spec/42_system.md R160, R161, log entry 6). -/
def touchCsrs (f : CsrNum → Word → Word) : List (CsrNum × CsrCell) → List (CsrNum × CsrCell)
  | [] => []
  | (d, cell) :: r =>
    (d, { cell with value := if cell.behaviour = .custom then f d cell.value else cell.value }) :: touchCsrs f r

/-- The read function of the platform's CSR `c` in step `n` (spec/10_state.md R33). -/
def CsrCell.readValue (cell : CsrCell) (n : Nat) (c : CsrNum) : Word :=
  match cell.behaviour with
  | .storage => cell.value
  | .custom => Config.csrReadValue n c cell.value

/-- The platform's CSRs after the side effect of step `n`'s read of `c` (spec/42_system.md R160). -/
def readCsr (n : Nat) (c : CsrNum) (l : List (CsrNum × CsrCell)) : List (CsrNum × CsrCell) :=
  match findCsr c l with
  | none => l
  | some cell =>
    match cell.behaviour with
    | .storage => l
    | .custom => touchCsrs (Config.csrReadEffect n c) l

/-- The platform's CSRs after step `n`'s write of `v` to `c`, by its write function and with its side effect
(spec/10_state.md R33, spec/42_system.md R161). -/
def writeCsr (n : Nat) (c : CsrNum) (v : Word) (l : List (CsrNum × CsrCell)) : List (CsrNum × CsrCell) :=
  match findCsr c l with
  | none => l
  | some cell =>
    match cell.behaviour with
    | .storage => putCsr c v l
    | .custom => putCsr c (Config.csrWriteValue n c cell.value v) (touchCsrs (Config.csrWriteEffect n c v) l)

/-- The number is one of the six counter CSRs (spec/10_state.md R29). -/
def isCounter (c : CsrNum) : Bool :=
  c == csrCycle || c == csrTime || c == csrInstret || c == csrCycleh || c == csrTimeh || c == csrInstreth

/-- The counters as this instruction samples them: a read of a half of `cycle` or `time` finds that counter
at a value the spec does not determine (spec/10_state.md R30, R31, U6, log entry 7). -/
def State.sampleCounters (s : State) (c : CsrNum) : State :=
  { s with
    cycleCtr := if c = csrCycle ∨ c = csrCycleh then Config.cycleDraw s.draws s.cycleCtr else s.cycleCtr
    timeCtr := if c = csrTime ∨ c = csrTimeh then Config.timeDraw s.draws s.timeCtr else s.timeCtr }

/-- The value of a CSR in the state as sampled, if the number is in `CSR_SET` (spec/42_system.md R160,
spec/10_state.md R29, R33). The six counters come first: a platform cannot replace them. -/
def State.csrValue (s : State) (c : CsrNum) : Option Word :=
  if c = csrCycle then some (lowHalf s.cycleCtr)
  else if c = csrCycleh then some (highHalf s.cycleCtr)
  else if c = csrTime then some (lowHalf s.timeCtr)
  else if c = csrTimeh then some (highHalf s.timeCtr)
  else if c = csrInstret then some (lowHalf s.instretCtr)
  else if c = csrInstreth then some (highHalf s.instretCtr)
  else (findCsr c s.extCsrs).map (fun cell => cell.readValue s.draws c)

/-- `CSR_SET[c].writable`: the counters are read-only (spec/10_state.md R29). -/
def State.csrWritable (s : State) (c : CsrNum) : Bool :=
  !isCounter c && ((findCsr c s.extCsrs).map (fun cell => cell.writable)).getD false

/-- `CsrCheck(c, w)` passes: the number exists, and is writable if this form writes (spec/42_system.md
R160). -/
def State.csrAllowed (s : State) (c : CsrNum) (writes : Bool) : Bool :=
  (isCounter c || (findCsr c s.extCsrs).isSome) && (!writes || s.csrWritable c)

/-- `CsrWrite(c, v)`: the CSR's write function, and the side effect of the write (spec/42_system.md R161). -/
def State.csrWrite (s : State) (c : CsrNum) (v : Word) : State :=
  { s with extCsrs := if isCounter c then s.extCsrs else writeCsr s.draws c v s.extCsrs }

/-- The side effect of `CsrRead(c)`, of which the counters have none (spec/42_system.md R160,
spec/10_state.md R29). -/
def State.csrReadEffect (s : State) (c : CsrNum) : State :=
  { s with extCsrs := if isCounter c then s.extCsrs else readCsr s.draws c s.extCsrs }

/-- `CsrRead(c)` into `rd`: the counters are sampled, the read has its side effect, and the value is widened
with zeros, which changes nothing at 32 bits (spec/42_system.md R160, R161). -/
def State.csrReadTo (s : State) (rd : Reg) (c : CsrNum) : State :=
  ((s.sampleCounters c).csrReadEffect c).setReg rd (((s.sampleCounters c).csrValue c).getD 0#32)

/-- The common part of the six CSR instructions, one indivisible step (spec/20_memory.md R64). `inst` is the
instruction word, `reads` and `writes` say what this form does, and `new` gives the value written from
the one read (spec/42_system.md R160 to R167). The check comes first: when it raises, nothing happens. -/
def State.csrAccess (s : State) (inst : Word) (rd : Reg) (c : CsrNum) (reads writes : Bool) (new : Word → Word) :
    Result :=
  if s.csrAllowed c writes then
    let read := if reads then s.csrReadTo rd c else s
    let wrote := if writes then read.csrWrite c (new (((s.sampleCounters c).csrValue c).getD 0#32)) else read
    wrote.finish
  else s.raise .illegalInstruction inst

/-! ## Fetch (spec/10_state.md R25 step 1, spec/48_fence.md R245) -/

/-- The byte a fetch sees: the byte in memory, or, at an unsynced address, by a free choice per byte and per
fetch, the byte from when `unsynced` was last empty (spec/48_fence.md R245, U3, log entry 9). -/
def State.fetchByte (s : State) (a : Word) : Byte :=
  match findAt a.toNat s.unsynced with
  | none => s.byteAt a
  | some old =>
    if Config.fetchSeesOld s.draws a.toNat then old.getD (Config.memReset a.toNat) else s.byteAt a

/-- The 32-bit word a fetch at `a` sees, little-endian (spec/20_memory.md R56). -/
def State.fetchWordAt (s : State) (a : Word) : Word :=
  leWord (s.fetchByte a) (s.fetchByte (a + 1#32)) (s.fetchByte (a + 2#32)) (s.fetchByte (a + 3#32))

/-- Step 1 of spec/10_state.md R25: the word at `pc`, or the exception of the fetch, whose info is `pc`. -/
def State.fetch (s : State) : Except Cause Word :=
  if !aligned4 s.pc then .error .instructionAddressMisaligned
  else if !s.validSpan .fetch s.pc 4 then .error .instructionAccessFault
  else .ok (s.fetchWordAt s.pc)

end Sys2Proof.Machine
end

