-- ==== Sys2Proof/Machine/Branch.lean ====
section
/-! DEFINITION. The six conditional branches (spec/46_branch.md R215 to R221). -/

namespace Sys2Proof.Machine

/-- BEQ (R216). -/
def execBeq (rs1 rs2 : Reg) (imm13 : BitVec 13) (s : State) : Result :=
  s.branchIf (s.reg rs1 == s.reg rs2) imm13

/-- BNE (R217). -/
def execBne (rs1 rs2 : Reg) (imm13 : BitVec 13) (s : State) : Result :=
  s.branchIf (s.reg rs1 != s.reg rs2) imm13

/-- BLT (R218): signed. -/
def execBlt (rs1 rs2 : Reg) (imm13 : BitVec 13) (s : State) : Result :=
  s.branchIf (lessSigned (s.reg rs1) (s.reg rs2)) imm13

/-- BLTU (R219): unsigned. -/
def execBltu (rs1 rs2 : Reg) (imm13 : BitVec 13) (s : State) : Result :=
  s.branchIf (lessUnsigned (s.reg rs1) (s.reg rs2)) imm13

/-- BGE (R220): the exact negation of BLT's condition. -/
def execBge (rs1 rs2 : Reg) (imm13 : BitVec 13) (s : State) : Result :=
  s.branchIf (!lessSigned (s.reg rs1) (s.reg rs2)) imm13

/-- BGEU (R221): the exact negation of BLTU's condition. -/
def execBgeu (rs1 rs2 : Reg) (imm13 : BitVec 13) (s : State) : Result :=
  s.branchIf (!lessUnsigned (s.reg rs1) (s.reg rs2)) imm13

end Sys2Proof.Machine
end

