-- ==== Sys2Proof/Machine/Fence.lean ====
section
/-! DEFINITION. The two fences (spec/48_fence.md R240 to R245). Neither raises. -/

namespace Sys2Proof.Machine

/-- The hart's stores become visible to its later fetches: `unsynced <- {}` (R244). -/
def State.syncFetch (s : State) : State := { s with unsynced := [] }

/-- FENCE (R240, R241): with one hart and no device it orders nothing that this hart can see, for every pair
of sets, so it changes nothing but `pc` and instret. That is exact (R240; log entry 12). -/
def execFence (_pred _succ : FenceSet) (s : State) : Result :=
  s.finish

/-- FENCE.I (R244). -/
def execFenceI (s : State) : Result :=
  s.syncFetch.finish

end Sys2Proof.Machine
end

