-- ==== Sys2Proof/Machine/Jal.lean ====
section
/-! DEFINITION. JAL (spec/45_jal.md R210). -/

namespace Sys2Proof.Machine

/-- JAL (R210): the target is `pc + sext(imm21)`, modulo 2^32. -/
def execJal (rd : Reg) (imm21 : BitVec 21) (s : State) : Result :=
  s.goToLinking rd (s.pc + sext21 imm21)

end Sys2Proof.Machine
end

