-- ==== Sys2Proof/Machine/JalrLoads.lean ====
section
/-! DEFINITION. JALR and the five loads (spec/41_jalr_loads.md R140 to R146). -/

namespace Sys2Proof.Machine

/-- JALR (R140): the sum modulo 2^32 with bit 0 cleared; `x[rs1]` is read before `x[rd]` is written. -/
def execJalr (rd rs1 : Reg) (imm12 : BitVec 12) (s : State) : Result :=
  s.goToLinking rd ((s.reg rs1 + sext12 imm12) &&& 0xFFFFFFFE#32)

/-- LW (R142): 32 bits, no extension needed. -/
def execLw (rd rs1 : Reg) (imm12 : BitVec 12) (s : State) : Result :=
  s.loadTo rd (s.effAddr rs1 imm12) 4 (s.wordAt (s.effAddr rs1 imm12))

/-- LH (R143): bit 15 of the halfword is copied into bits 31:16. -/
def execLh (rd rs1 : Reg) (imm12 : BitVec 12) (s : State) : Result :=
  s.loadTo rd (s.effAddr rs1 imm12) 2 (sextHalf (s.halfAt (s.effAddr rs1 imm12)))

/-- LHU (R144): bits 31:16 are 0. -/
def execLhu (rd rs1 : Reg) (imm12 : BitVec 12) (s : State) : Result :=
  s.loadTo rd (s.effAddr rs1 imm12) 2 (zextHalf (s.halfAt (s.effAddr rs1 imm12)))

/-- LB (R145): bit 7 of the byte is copied into bits 31:8. -/
def execLb (rd rs1 : Reg) (imm12 : BitVec 12) (s : State) : Result :=
  s.loadTo rd (s.effAddr rs1 imm12) 1 (sextByte (s.byteAt (s.effAddr rs1 imm12)))

/-- LBU (R146): bits 31:8 are 0. -/
def execLbu (rd rs1 : Reg) (imm12 : BitVec 12) (s : State) : Result :=
  s.loadTo rd (s.effAddr rs1 imm12) 1 (zextByte (s.byteAt (s.effAddr rs1 imm12)))

end Sys2Proof.Machine
end

