-- ==== Sys2Proof/Machine/OpImm.lean ====
section
/-! DEFINITION. The nine register-immediate instructions (spec/40_op_imm.md R120 to R128). None raises. -/

namespace Sys2Proof.Machine

/-- ADDI (R120): `x[rs1] + sext(imm12)`, modulo 2^32. -/
def execAddi (rd rs1 : Reg) (imm12 : BitVec 12) (s : State) : Result :=
  s.writeResult rd (s.reg rs1 + sext12 imm12)

/-- SLTI (R121): signed comparison with `sext(imm12)`. -/
def execSlti (rd rs1 : Reg) (imm12 : BitVec 12) (s : State) : Result :=
  s.writeResult rd (boolWord (lessSigned (s.reg rs1) (sext12 imm12)))

/-- SLTIU (R122): the immediate is sign-extended first, then compared unsigned. -/
def execSltiu (rd rs1 : Reg) (imm12 : BitVec 12) (s : State) : Result :=
  s.writeResult rd (boolWord (lessUnsigned (s.reg rs1) (sext12 imm12)))

/-- XORI (R123). -/
def execXori (rd rs1 : Reg) (imm12 : BitVec 12) (s : State) : Result :=
  s.writeResult rd (s.reg rs1 ^^^ sext12 imm12)

/-- ORI (R124). -/
def execOri (rd rs1 : Reg) (imm12 : BitVec 12) (s : State) : Result :=
  s.writeResult rd (s.reg rs1 ||| sext12 imm12)

/-- ANDI (R125). -/
def execAndi (rd rs1 : Reg) (imm12 : BitVec 12) (s : State) : Result :=
  s.writeResult rd (s.reg rs1 &&& sext12 imm12)

/-- SLLI (R126): zeros enter at bit 0. -/
def execSlli (rd rs1 : Reg) (imm5 : BitVec 5) (s : State) : Result :=
  s.writeResult rd (s.reg rs1 <<< (zext5 imm5).toNat)

/-- SRLI (R127): zeros enter at bit 31. -/
def execSrli (rd rs1 : Reg) (imm5 : BitVec 5) (s : State) : Result :=
  s.writeResult rd (s.reg rs1 >>> (zext5 imm5).toNat)

/-- SRAI (R128): copies of the old bit 31 enter at bit 31. -/
def execSrai (rd rs1 : Reg) (imm5 : BitVec 5) (s : State) : Result :=
  s.writeResult rd ((s.reg rs1).sshiftRight (zext5 imm5).toNat)

end Sys2Proof.Machine
end

