-- ==== Sys2Proof/Machine/Register.lean ====
section
/-! DEFINITION. The ten register-register instructions (spec/44_register.md R190 to R199). None raises. -/

namespace Sys2Proof.Machine

/-- ADD (R190), modulo 2^32. -/
def execAdd (rd rs1 rs2 : Reg) (s : State) : Result :=
  s.writeResult rd (s.reg rs1 + s.reg rs2)

/-- SUB (R191): `rs1` minus `rs2`, modulo 2^32. -/
def execSub (rd rs1 rs2 : Reg) (s : State) : Result :=
  s.writeResult rd (s.reg rs1 - s.reg rs2)

/-- SLT (R192): signed, exact. -/
def execSlt (rd rs1 rs2 : Reg) (s : State) : Result :=
  s.writeResult rd (boolWord (lessSigned (s.reg rs1) (s.reg rs2)))

/-- SLTU (R193): unsigned. -/
def execSltu (rd rs1 rs2 : Reg) (s : State) : Result :=
  s.writeResult rd (boolWord (lessUnsigned (s.reg rs1) (s.reg rs2)))

/-- AND (R194). -/
def execAnd (rd rs1 rs2 : Reg) (s : State) : Result :=
  s.writeResult rd (s.reg rs1 &&& s.reg rs2)

/-- OR (R195). -/
def execOr (rd rs1 rs2 : Reg) (s : State) : Result :=
  s.writeResult rd (s.reg rs1 ||| s.reg rs2)

/-- XOR (R196). -/
def execXor (rd rs1 rs2 : Reg) (s : State) : Result :=
  s.writeResult rd (s.reg rs1 ^^^ s.reg rs2)

/-- SLL (R197): by bits 4:0 of `x[rs2]`. -/
def execSll (rd rs1 rs2 : Reg) (s : State) : Result :=
  s.writeResult rd (s.reg rs1 <<< shiftAmount (s.reg rs2))

/-- SRL (R198): by bits 4:0 of `x[rs2]`. -/
def execSrl (rd rs1 rs2 : Reg) (s : State) : Result :=
  s.writeResult rd (s.reg rs1 >>> shiftAmount (s.reg rs2))

/-- SRA (R199): by bits 4:0 of `x[rs2]`. -/
def execSra (rd rs1 rs2 : Reg) (s : State) : Result :=
  s.writeResult rd ((s.reg rs1).sshiftRight (shiftAmount (s.reg rs2)))

end Sys2Proof.Machine
end

