-- ==== Sys2Proof/Machine/Store.lean ====
section
/-! DEFINITION. The three stores (spec/47_store.md R230 to R233). -/

namespace Sys2Proof.Machine

/-- SW (R230): all 32 bits. -/
def execSw (rs2 rs1 : Reg) (imm12 : BitVec 12) (s : State) : Result :=
  s.storeFrom (s.effAddr rs1 imm12) 4 (s.reg rs2)

/-- SH (R231): the low 16 bits. -/
def execSh (rs2 rs1 : Reg) (imm12 : BitVec 12) (s : State) : Result :=
  s.storeFrom (s.effAddr rs1 imm12) 2 (s.reg rs2)

/-- SB (R232): the low 8 bits. -/
def execSb (rs2 rs1 : Reg) (imm12 : BitVec 12) (s : State) : Result :=
  s.storeFrom (s.effAddr rs1 imm12) 1 (s.reg rs2)

end Sys2Proof.Machine
end

