-- ==== Sys2Proof/Machine/System.lean ====
section
/-! DEFINITION. The six CSR instructions, ECALL and EBREAK (spec/42_system.md R160 to R169). The word an
IllegalInstruction carries is the instruction's own encoding (spec/60_exceptions.md R283, log entry 14). -/

namespace Sys2Proof.Machine

/-- CSRRW (R162): always writes; with `rd = x0` the CSR is not read at all. -/
def execCsrrw (rd : Reg) (csr : CsrNum) (rs1 : Reg) (s : State) : Result :=
  s.csrAccess (encode (.csrrw rd csr rs1)) rd csr (rd != 0#5) true (fun _ => s.reg rs1)

/-- CSRRS (R163): always reads; writes exactly when the `rs1` field is not 0. -/
def execCsrrs (rd : Reg) (csr : CsrNum) (rs1 : Reg) (s : State) : Result :=
  s.csrAccess (encode (.csrrs rd csr rs1)) rd csr true (rs1 != 0#5) (fun t => t ||| s.reg rs1)

/-- CSRRC (R164): as CSRRS, with clear for set. -/
def execCsrrc (rd : Reg) (csr : CsrNum) (rs1 : Reg) (s : State) : Result :=
  s.csrAccess (encode (.csrrc rd csr rs1)) rd csr true (rs1 != 0#5) (fun t => t &&& ~~~(s.reg rs1))

/-- CSRRWI (R165): always writes, also with a zero literal. -/
def execCsrrwi (rd : Reg) (csr : CsrNum) (imm5 : BitVec 5) (s : State) : Result :=
  s.csrAccess (encode (.csrrwi rd csr imm5)) rd csr (rd != 0#5) true (fun _ => zext5 imm5)

/-- CSRRSI (R166): writes exactly when the literal is not 0. -/
def execCsrrsi (rd : Reg) (csr : CsrNum) (imm5 : BitVec 5) (s : State) : Result :=
  s.csrAccess (encode (.csrrsi rd csr imm5)) rd csr true (imm5 != 0#5) (fun t => t ||| zext5 imm5)

/-- CSRRCI (R167): writes exactly when the literal is not 0. -/
def execCsrrci (rd : Reg) (csr : CsrNum) (imm5 : BitVec 5) (s : State) : Result :=
  s.csrAccess (encode (.csrrci rd csr imm5)) rd csr true (imm5 != 0#5) (fun t => t &&& ~~~(zext5 imm5))

/-- ECALL (R168): EnvironmentCall with info 0, always. -/
def execEcall (s : State) : Result :=
  s.raise .environmentCall 0#32

/-- EBREAK (R169): Breakpoint with info `pc`, always. -/
def execEbreak (s : State) : Result :=
  s.raise .breakpoint s.pc

end Sys2Proof.Machine
end

