-- ==== Sys2Proof/Machine/UpperImm.lean ====
section
/-! DEFINITION. LUI and AUIPC (spec/43_upper_imm.md R180, R181). Neither raises. -/

namespace Sys2Proof.Machine

/-- LUI (R180): the 20 bits in bits 31:12, zeros below. -/
def execLui (rd : Reg) (imm20 : BitVec 20) (s : State) : Result :=
  s.writeResult rd (upper20 imm20)

/-- AUIPC (R181): `pc + (imm20 << 12)`, `pc` the address of the AUIPC itself. -/
def execAuipc (rd : Reg) (imm20 : BitVec 20) (s : State) : Result :=
  s.writeResult rd (s.pc + upper20 imm20)

end Sys2Proof.Machine
end

