-- ==== Sys2Proof/Machine/Step.lean ====
section
/-! DEFINITION. One step of the hart (spec/10_state.md R25), and the placing of one instruction where the
next step fetches it. -/

namespace Sys2Proof.Machine

/-- One step, in the order of spec/10_state.md R25: fetch, decode, execute, retire; the first that raises
takes the trap. A hart that a trap has stopped has no step: its run has ended (spec/60_exceptions.md
R290). -/
def step (s : State) : Host.Outcome State Fault Refusal :=
  match s.trap with
  | some _ => .fault .runEnded
  | none =>
    match s.fetch with
    | .error c => s.raise c s.pc
    | .ok w =>
      match decode w with
      | .error _ => s.raise .illegalInstruction w
      | .ok i => exec i s

/-- The state with the 32-bit instruction of these bits placed at `pc` by the environment, as part of the
boot image (spec/70_reset_and_hazards.md R322): its four bytes in memory order, visible to fetch, and the
hart running (log entry 13). -/
def State.withFetchWord (s : State) (nbits w : Nat) : State :=
  { s.placeBytes s.pc (leBytes (BitVec.ofNat 32 (w % 2 ^ nbits)) 4) with trap := none }

end Sys2Proof.Machine
end

