-- ==== Sys2Proof/Machine/Pseudo.lean ====
section
/-! DEFINITION. The expansion of each pseudo-op into its one real instruction (spec/49_pseudo_ops.md R250
to R269). The hardware sees only the expansion. -/

namespace Sys2Proof.Machine

/-- The real instruction a pseudo-op stands for. -/
def expand : Pseudo → Instr
  | .seqz rd rs => .sltiu rd rs 1#12
  | .not rd rs => .xori rd rs 0xFFF#12
  | .snez rd rs => .sltu rd 0#5 rs
  | .nop => .addi 0#5 0#5 0#12
  | .j imm21 => .jal 0#5 imm21
  | .bgt r1 r2 imm13 => .blt r2 r1 imm13
  | .bgtu r1 r2 imm13 => .bltu r2 r1 imm13
  | .ble r1 r2 imm13 => .bge r2 r1 imm13
  | .bleu r1 r2 imm13 => .bgeu r2 r1 imm13
  | .csrr rd csr => .csrrs rd csr 0#5
  | .csrw csr rs1 => .csrrw 0#5 csr rs1
  | .csrwi csr imm5 => .csrrwi 0#5 csr imm5
  | .csrs csr rs1 => .csrrs 0#5 csr rs1
  | .csrsi csr imm5 => .csrrsi 0#5 csr imm5
  | .csrc csr rs1 => .csrrc 0#5 csr rs1
  | .csrci csr imm5 => .csrrci 0#5 csr imm5
  | .rdcycle rd => .csrrs rd csrCycle 0#5
  | .rdcycleh rd => .csrrs rd csrCycleh 0#5
  | .rdtime rd => .csrrs rd csrTime 0#5
  | .rdtimeh rd => .csrrs rd csrTimeh 0#5
  | .rdinstret rd => .csrrs rd csrInstret 0#5
  | .rdinstreth rd => .csrrs rd csrInstreth 0#5

end Sys2Proof.Machine
end

