-- ==== Sys2Proof/Safety.lean ====
section
/-! DEFINITION. The terms claims about the machine use: runs, the invariant, and the frames that say what an
instruction changes and that it changes nothing else. The index of free values, the model's own field, is
in no frame: it moves on with every step (log entry 8). -/

namespace Sys2Proof.Machine

/-- The hart has not trapped (spec/60_exceptions.md R290). -/
def State.running (s : State) : Bool := s.trap.isNone

/-- What every step keeps: `pc` is a multiple of 4 (spec/10_state.md R27), and memory and the unsynced set
have their canonical form. -/
structure State.Inv (s : State) : Prop where
  pcAligned : s.pc.toNat % 4 = 0
  memWf : s.mem.wf
  unsyncedWf : s.unsynced.wf

/-- The states `k` steps reach. -/
inductive Reaches : Nat → State → State → Prop where
  | here (s : State) : Reaches 0 s s
  | after {k : Nat} {s t u : State} : step s = .next t → Reaches k t u → Reaches (k + 1) s u

/-- The run of `k` steps from `s` ends in a running hart: no instruction of it trapped. -/
def RunsSafely (k : Nat) (s : State) : Prop := ∃ t, Reaches k s t ∧ t.running = true

/-- From `s` to `t` one instruction retired that wrote `v` to `rd` (nothing if `rd` is `x0`), went on at
`next`, and changed nothing else. -/
structure WroteOnly (s t : State) (rd : Reg) (v next : Word) : Prop where
  destination : rd ≠ 0#5 → t.reg rd = v
  zeroRegister : t.reg 0#5 = 0#32
  otherRegisters : ∀ r : Reg, r ≠ rd → t.reg r = s.reg r
  nextPc : t.pc = next
  counted : t.instretCtr = s.instretCtr + 1#64
  bytes : ∀ a : Word, t.byteAt a = s.byteAt a
  sameUnsynced : t.unsynced = s.unsynced
  sameCycle : t.cycleCtr = s.cycleCtr
  sameTime : t.timeCtr = s.timeCtr
  sameCsrs : t.extCsrs = s.extCsrs
  samePlatform : t.platform = s.platform
  sameTrap : t.trap = s.trap

/-- From `s` to `t` one instruction retired that went on at `next` and changed nothing else. -/
abbrev MovedOnly (s t : State) (next : Word) : Prop := WroteOnly s t 0#5 0#32 next

/-- From `s` to `t` one instruction retired that stored the `n` low bytes of `v` from `a` up, least
significant first, addresses modulo 2^32, put those addresses into `unsynced`, and changed nothing else. -/
structure StoredOnly (s t : State) (a : Word) (n : Nat) (v : Word) : Prop where
  stored : ∀ k, k < n → t.byteAt (a + BitVec.ofNat 32 k) = v.extractLsb' (8 * k) 8
  otherBytes : ∀ b : Word, (∀ k, k < n → b ≠ a + BitVec.ofNat 32 k) → t.byteAt b = s.byteAt b
  marked : ∀ b : Word, (findAt b.toNat t.unsynced).isSome = true ↔
    (findAt b.toNat s.unsynced).isSome = true ∨ ∃ k, k < n ∧ b = a + BitVec.ofNat 32 k
  registers : ∀ r : Reg, t.reg r = s.reg r
  nextPc : t.pc = s.pc + 4#32
  counted : t.instretCtr = s.instretCtr + 1#64
  sameCycle : t.cycleCtr = s.cycleCtr
  sameTime : t.timeCtr = s.timeCtr
  sameCsrs : t.extCsrs = s.extCsrs
  samePlatform : t.platform = s.platform
  sameTrap : t.trap = s.trap

/-- From `s` to `t` the hart took a trap: the record is as given, with the raising instruction's address,
and everything else is as before it began (spec/60_exceptions.md R290). -/
structure TrappedOnly (s t : State) (cause : Cause) (code : Nat) (info : Word) : Prop where
  record : t.trap = some { cause := cause, code := code, epc := s.pc, info := info }
  registers : ∀ r : Reg, t.reg r = s.reg r
  samePc : t.pc = s.pc
  notCounted : t.instretCtr = s.instretCtr
  bytes : ∀ a : Word, t.byteAt a = s.byteAt a
  sameUnsynced : t.unsynced = s.unsynced
  sameCycle : t.cycleCtr = s.cycleCtr
  sameTime : t.timeCtr = s.timeCtr
  sameCsrs : t.extCsrs = s.extCsrs
  samePlatform : t.platform = s.platform

/-- A control transfer to `target` by an instruction that writes `link` to `rd`: it completes at a multiple
of 4 and raises InstructionAddressMisaligned otherwise (spec/60_exceptions.md R281). -/
def Transferred (s t : State) (rd : Reg) (link target : Word) : Prop :=
  if target.toNat % 4 = 0 then WroteOnly s t rd link target
  else TrappedOnly s t .instructionAddressMisaligned 0 target

/-- A branch of the given offset: taken exactly when the condition holds (spec/46_branch.md R215). -/
def Branched (s t : State) (taken : Bool) (imm13 : BitVec 13) : Prop :=
  if taken then Transferred s t 0#5 0#32 (BitVec.ofInt 32 (s.pc.toInt + imm13.toInt))
  else MovedOnly s t (s.pc + 4#32)

/-- Every byte of the access at `a` exists for its kind (spec/20_memory.md R55). -/
def AllValid (s : State) (kind : AccessKind) (a : Word) (n : Nat) : Prop :=
  ∀ k, k < n → memValid s.platform (a + BitVec.ofNat 32 k).toNat kind = true

/-- A data access of `n` bytes at `a` raises the misaligned exception of its kind: it is not naturally
aligned, and `MISALIGNED_DATA` is `trap`, or is `either` and the access's free choice says trap
(spec/20_memory.md R53, R54). -/
def RaisesMisaligned (s : State) (a : Word) (n : Nat) : Prop :=
  a.toNat % n ≠ 0 ∧
    (s.platform.misaligned = .trap ∨ (s.platform.misaligned = .either ∧ Config.misalignedTraps s.draws = true))

/-- The value of the `n` bytes at `a`, least significant first, addresses modulo 2^32
(spec/20_memory.md R50). -/
def bytesValue (s : State) (a : Word) : Nat → Nat
  | 0 => 0
  | n + 1 => (s.byteAt a).toNat + 256 * bytesValue s (a + 1#32) n

/-- The six counter CSRs of spec/10_state.md R29. -/
def counterCsrs : List CsrNum := [0xC00#12, 0xC01#12, 0xC02#12, 0xC80#12, 0xC81#12, 0xC82#12]

/-- The number is in `CSR_SET` (spec/42_system.md R160): a counter, or a CSR of the platform. -/
def CsrExists (s : State) (c : CsrNum) : Prop := c ∈ counterCsrs ∨ ∃ cell, findCsr c s.extCsrs = some cell

/-- The CSR may be written: one of the platform's that is writable (spec/10_state.md R29, R33). -/
def CsrMayWrite (s : State) (c : CsrNum) : Prop :=
  c ∉ counterCsrs ∧ ∃ cell, findCsr c s.extCsrs = some cell ∧ cell.writable = true

/-- What CSR `d` of the platform, which was `cell`, is after step `n` has read CSR `c`, which behaves as `b`:
the side effect of a custom CSR's read reaches the custom CSRs (spec/42_system.md R160, log entry 6). -/
def afterRead (n : Nat) (c : CsrNum) (b : CsrBehaviour) (d : CsrNum) (cell : CsrCell) : CsrCell :=
  if b = .custom ∧ cell.behaviour = .custom then { cell with value := Config.csrReadEffect n c d cell.value }
  else cell

/-- What CSR `d` of the platform, which was `cell`, is after step `n` has written `v` to CSR `c`, which behaves
as `b`: `c` itself holds `v` if it is storage and what its write function says if it is custom, and the side
effect of a custom CSR's write reaches the other custom CSRs (spec/42_system.md R161, log entry 6). -/
def afterWrite (n : Nat) (c : CsrNum) (b : CsrBehaviour) (v : Word) (d : CsrNum) (cell : CsrCell) : CsrCell :=
  if d = c then { cell with value := if b = .custom then Config.csrWriteValue n c cell.value v else v }
  else if b = .custom ∧ cell.behaviour = .custom then
    { cell with value := Config.csrWriteEffect n c v d cell.value }
  else cell

/-- A read of CSR `c` in `s` finds `v` and leaves `sampled`: a half of a counter, `cycle` and `time` being
sampled at a value the spec does not determine, or what the read function of a CSR of the platform gives, with
the side effect of that read (spec/42_system.md R160, spec/10_state.md R29 to R33). -/
def CsrReads (s : State) (c : CsrNum) (v : Word) (sampled : State) : Prop :=
  if c = 0xC00#12 ∨ c = 0xC80#12 then
    sampled = { s with cycleCtr := Config.cycleDraw s.draws s.cycleCtr } ∧
    v = BitVec.ofNat 32 (sampled.cycleCtr.toNat / 2 ^ (if c = 0xC00#12 then 0 else 32))
  else if c = 0xC01#12 ∨ c = 0xC81#12 then
    sampled = { s with timeCtr := Config.timeDraw s.draws s.timeCtr } ∧
    v = BitVec.ofNat 32 (sampled.timeCtr.toNat / 2 ^ (if c = 0xC01#12 then 0 else 32))
  else if c = 0xC02#12 ∨ c = 0xC82#12 then
    sampled = s ∧ v = BitVec.ofNat 32 (s.instretCtr.toNat / 2 ^ (if c = 0xC02#12 then 0 else 32))
  else ∃ cell, findCsr c s.extCsrs = some cell ∧
    v = (if cell.behaviour = .custom then Config.csrReadValue s.draws c cell.value else cell.value) ∧
    sampled = { s with extCsrs := sampled.extCsrs } ∧
    ∀ d : CsrNum, findCsr d sampled.extCsrs =
      (findCsr d s.extCsrs).map (afterRead s.draws c cell.behaviour d)

/-- From `s` to `t` the platform's CSR `c` received the write of `v`, and the CSRs of the platform are as that
write leaves them (spec/42_system.md R161, spec/10_state.md R33). -/
def CsrReceived (s t : State) (c : CsrNum) (v : Word) : Prop :=
  ∃ cell, findCsr c s.extCsrs = some cell ∧
    ∀ d : CsrNum, findCsr d t.extCsrs = (findCsr d s.extCsrs).map (afterWrite s.draws c cell.behaviour v d)

/-- The instruction answers a next state in which it wrote `v` to `rd`, moved on by one instruction, and
changed nothing else. -/
def Writes (i : Instr) (s : State) (rd : Reg) (v : Word) : Prop :=
  ∃ t, exec i s = .next t ∧ WroteOnly s t rd v (s.pc + 4#32)

/-- The instruction takes this trap, and nothing of it happens (spec/60_exceptions.md R280, R290). -/
def Traps (i : Instr) (s : State) (cause : Cause) (code : Nat) (info : Word) : Prop :=
  ∃ t, exec i s = .next t ∧ TrappedOnly s t cause code info

/-- What a load of `n` bytes at `a` does, `v` being the extended value: the misaligned exception first, then
the access fault, else `v` goes to `rd` (spec/41_jalr_loads.md R141). -/
def Loads (i : Instr) (s : State) (rd : Reg) (a : Word) (n : Nat) (v : Word) : Prop :=
  (RaisesMisaligned s a n → Traps i s .loadAddressMisaligned 4 a) ∧
  (¬ RaisesMisaligned s a n → ¬ AllValid s .load a n → Traps i s .loadAccessFault 5 a) ∧
  (¬ RaisesMisaligned s a n → AllValid s .load a n → Writes i s rd v)

/-- What a store of the `n` low bytes of `v` at `a` does: the misaligned exception first, then the access
fault, else the bytes reach memory (spec/47_store.md R233). -/
def Stores (i : Instr) (s : State) (a : Word) (n : Nat) (v : Word) : Prop :=
  (RaisesMisaligned s a n → Traps i s .storeAddressMisaligned 6 a) ∧
  (¬ RaisesMisaligned s a n → ¬ AllValid s .store a n → Traps i s .storeAccessFault 7 a) ∧
  (¬ RaisesMisaligned s a n → AllValid s .store a n → ∃ t, exec i s = .next t ∧ StoredOnly s t a n v)

/-- The instruction raises IllegalInstruction with its own word, and nothing of it happens
(spec/60_exceptions.md R283). -/
def RaisesIllegal (i : Instr) (s : State) : Prop := Traps i s .illegalInstruction 2 (encode i)

/-- A CSR form that always reads, with the side effect of the read, and then writes exactly when `writes` says
so, replacing the value read `v` by `new v` (spec/42_system.md R163, R164, R166, R167). -/
def ReadsAndMayWrite (i : Instr) (s : State) (rd : Reg) (c : CsrNum) (writes : Prop) (new : Word → Word) : Prop :=
  (CsrExists s c ∧ (writes → CsrMayWrite s c) →
    ∃ v sampled t, CsrReads s c v sampled ∧ exec i s = .next t ∧
      WroteOnly { sampled with extCsrs := t.extCsrs } t rd v (s.pc + 4#32) ∧
      (writes → CsrReceived sampled t c (new v)) ∧ (¬ writes → t.extCsrs = sampled.extCsrs)) ∧
  (¬ (CsrExists s c ∧ (writes → CsrMayWrite s c)) → RaisesIllegal i s)

/-- A CSR form that always writes `new`, after a read into `rd`; if `rd` is `x0` the CSR is not read at all, and
the read has no side effect (spec/42_system.md R162, R165). -/
def WritesAndMayRead (i : Instr) (s : State) (rd : Reg) (c : CsrNum) (new : Word) : Prop :=
  (CsrMayWrite s c →
    ∃ v sampled t, (if rd = 0#5 then sampled = s else CsrReads s c v sampled) ∧ exec i s = .next t ∧
      WroteOnly { s with extCsrs := t.extCsrs } t rd v (s.pc + 4#32) ∧ CsrReceived sampled t c new) ∧
  (¬ CsrMayWrite s c → RaisesIllegal i s)

/-- The old bytes of `s` are those of `base`, a state at which the unsynced set was empty: an address not in
the set holds what it held at `base`, and one in the set has that byte kept (spec/48_fence.md R245). -/
def OldBytesFrom (base s : State) : Prop :=
  ∀ a : Word, (match findAt a.toNat s.unsynced with
    | none => s.byteAt a
    | some old => old.getD (Config.memReset a.toNat)) = base.byteAt a

/-- The register an instruction names as its destination, if it has one (spec/10_state.md R23). -/
def destination : Instr → Option Reg
  | .addi rd _ _ | .slti rd _ _ | .sltiu rd _ _ | .xori rd _ _ | .ori rd _ _ | .andi rd _ _ => some rd
  | .slli rd _ _ | .srli rd _ _ | .srai rd _ _ | .jalr rd _ _ => some rd
  | .lw rd _ _ | .lh rd _ _ | .lhu rd _ _ | .lb rd _ _ | .lbu rd _ _ => some rd
  | .csrrw rd _ _ | .csrrs rd _ _ | .csrrc rd _ _ | .csrrwi rd _ _ | .csrrsi rd _ _ | .csrrci rd _ _ => some rd
  | .lui rd _ | .auipc rd _ | .jal rd _ => some rd
  | .add rd _ _ | .sub rd _ _ | .slt rd _ _ | .sltu rd _ _ | .and rd _ _ | .or rd _ _ | .xor rd _ _ => some rd
  | .sll rd _ _ | .srl rd _ _ | .sra rd _ _ => some rd
  | .ecall | .ebreak | .fence _ _ | .fenceI => none
  | .beq _ _ _ | .bne _ _ _ | .blt _ _ _ | .bltu _ _ _ | .bge _ _ _ | .bgeu _ _ _ => none
  | .sw _ _ _ | .sh _ _ _ | .sb _ _ _ => none

/-- The instruction is one of the three stores (spec/47_store.md). -/
def isStore : Instr → Bool
  | .sw _ _ _ | .sh _ _ _ | .sb _ _ _ => true
  | _ => false

/-- The exceptions each instruction can raise at its execution: the column "raised by" of
spec/60_exceptions.md R280. -/
def mayRaise : Instr → List Cause
  | .lw _ _ _ | .lh _ _ _ | .lhu _ _ _ => [.loadAddressMisaligned, .loadAccessFault]
  | .lb _ _ _ | .lbu _ _ _ => [.loadAccessFault]
  | .sw _ _ _ | .sh _ _ _ => [.storeAddressMisaligned, .storeAccessFault]
  | .sb _ _ _ => [.storeAccessFault]
  | .jal _ _ | .jalr _ _ _ => [.instructionAddressMisaligned]
  | .beq _ _ _ | .bne _ _ _ | .blt _ _ _ | .bltu _ _ _ | .bge _ _ _ | .bgeu _ _ _ =>
    [.instructionAddressMisaligned]
  | .csrrw _ _ _ | .csrrs _ _ _ | .csrrc _ _ _ | .csrrwi _ _ _ | .csrrsi _ _ _ | .csrrci _ _ _ =>
    [.illegalInstruction]
  | .ecall => [.environmentCall]
  | .ebreak => [.breakpoint]
  | .addi _ _ _ | .slti _ _ _ | .sltiu _ _ _ | .xori _ _ _ | .ori _ _ _ | .andi _ _ _ => []
  | .slli _ _ _ | .srli _ _ _ | .srai _ _ _ | .lui _ _ | .auipc _ _ => []
  | .add _ _ _ | .sub _ _ _ | .slt _ _ _ | .sltu _ _ _ | .and _ _ _ | .or _ _ _ | .xor _ _ _ => []
  | .sll _ _ _ | .srl _ _ _ | .sra _ _ _ | .fence _ _ | .fenceI => []

/-- The instruction transfers control in this state: JAL, JALR, and a branch whose condition holds
(spec/10_state.md R26, spec/46_branch.md R216 to R221). -/
def transfers (s : State) : Instr → Prop
  | .jal _ _ | .jalr _ _ _ => True
  | .beq rs1 rs2 _ => s.reg rs1 = s.reg rs2
  | .bne rs1 rs2 _ => s.reg rs1 ≠ s.reg rs2
  | .blt rs1 rs2 _ => (s.reg rs1).toInt < (s.reg rs2).toInt
  | .bltu rs1 rs2 _ => (s.reg rs1).toNat < (s.reg rs2).toNat
  | .bge rs1 rs2 _ => (s.reg rs1).toInt ≥ (s.reg rs2).toInt
  | .bgeu rs1 rs2 _ => (s.reg rs1).toNat ≥ (s.reg rs2).toNat
  | _ => False

/-- The instruction is one of the six that access a CSR (spec/42_system.md). -/
def isCsrAccess : Instr → Bool
  | .csrrw _ _ _ | .csrrs _ _ _ | .csrrc _ _ _ | .csrrwi _ _ _ | .csrrsi _ _ _ | .csrrci _ _ _ => true
  | _ => false

/-- The 11 values of `opcode` (spec/30_encoding.md R92). -/
def majorOpcodes : List (BitVec 7) :=
  [0x03#7, 0x0F#7, 0x13#7, 0x17#7, 0x23#7, 0x33#7, 0x37#7, 0x63#7, 0x67#7, 0x6F#7, 0x73#7]

/-- The illegal words, by opcode, function and upper bits, as spec/30_encoding.md R96 and R97 name them from
R92, R93, R94 and R82, and not by the rows of R95. -/
def IllegalWord (w : Word) : Prop :=
  let opcode := w.extractLsb' 0 7
  let function := w.extractLsb' 12 3
  let upper := w.extractLsb' 25 7
  opcode ∉ majorOpcodes ∨
  (opcode = 0x03#7 ∧ function ∈ [3#3, 6#3, 7#3]) ∨
  (opcode = 0x0F#7 ∧ function = 0#3 ∧
    (w.extractLsb' 28 4 ≠ 0#4 ∨ w.extractLsb' 15 5 ≠ 0#5 ∨ w.extractLsb' 7 5 ≠ 0#5)) ∨
  (opcode = 0x0F#7 ∧ function = 1#3 ∧
    (w.extractLsb' 20 12 ≠ 0#12 ∨ w.extractLsb' 15 5 ≠ 0#5 ∨ w.extractLsb' 7 5 ≠ 0#5)) ∨
  (opcode = 0x0F#7 ∧ function ∉ [0#3, 1#3]) ∨
  (opcode = 0x13#7 ∧ function = 1#3 ∧ upper ≠ 0#7) ∨
  (opcode = 0x13#7 ∧ function = 5#3 ∧ upper ≠ 0#7 ∧ upper ≠ 0x20#7) ∨
  (opcode = 0x23#7 ∧ function ∉ [0#3, 1#3, 2#3]) ∨
  (opcode = 0x33#7 ∧ upper ≠ 0#7 ∧ (upper ≠ 0x20#7 ∨ function ∉ [0#3, 5#3])) ∨
  (opcode = 0x63#7 ∧ function ∈ [2#3, 3#3]) ∨
  (opcode = 0x67#7 ∧ function ≠ 0#3) ∨
  (opcode = 0x73#7 ∧ function = 0#3 ∧ w ≠ 0x00000073#32 ∧ w ≠ 0x00100073#32) ∨
  (opcode = 0x73#7 ∧ function = 4#3)

end Sys2Proof.Machine
end

