-- ==== Sys2Proof/Certificates/Slice0/Obligations.lean ====
section
/-! DEFINITION. The statements for the provers, in the order of OBLIGATIONS.json. Each docstring names the
rule of spec/ or the sections a statement formalises. -/

open Sys2Proof Sys2Proof.Machine

/-! ## The encoding -/

/-- Decoding takes the one row a word matches, and finds the word illegal if there is none (R91). -/
def Obligations.DecodeFollowsTheTable : Prop :=
  ∀ w : Word,
    (rows.filter (fun r => r.accepts w)).length ≤ 1 ∧
    (∀ r ∈ rows, w &&& r.mask = r.pattern → decode w = .ok (r.build w)) ∧
    ((∀ r ∈ rows, w &&& r.mask ≠ r.pattern) → decode w = .error (.noRow w))

/-- Decoding the encoding of any well-formed instruction gives that instruction back (spec/30_encoding.md,
Formats, spec/30_encoding.md, The complete list). -/
def Obligations.DecodeOfEncode : Prop :=
  ∀ i : Instr, WellFormed i = true → decode (encode i) = .ok i

/-- Every word that decodes is the encoding of the well-formed instruction it decodes to (spec/30_encoding.md,
Formats, spec/30_encoding.md, The complete list). -/
def Obligations.EncodeOfDecode : Prop :=
  ∀ (w : Word) (i : Instr), decode w = .ok i → WellFormed i = true ∧ encode i = w

/-- The four bytes of an instruction in memory order decode to it and leave the bytes after them
(spec/30_encoding.md, Length, spec/20_memory.md, Instruction fetch). -/
def Obligations.DecodeBytesOfEncodeBytes : Prop :=
  ∀ (i : Instr) (rest : List Byte), WellFormed i = true →
    decodeBytes (encodeBytes i ++ rest) = .ok (i, rest)

/-- Exactly the words R96 and R97 call illegal fail to decode, and fetching one raises IllegalInstruction (R96,
R97). -/
def Obligations.IllegalWordsTrap : Prop :=
  ∀ w : Word,
    (IllegalWord w ↔ decode w = .error (.noRow w)) ∧
    ∀ s : State, s.trap = none → s.fetch = .ok w → IllegalWord w →
      ∃ t, step s = .next t ∧ TrappedOnly s t .illegalInstruction 2 w

/-- A word the spec writes out for each family decodes to the instruction the spec says it is
(spec/30_encoding.md, spec/40_op_imm.md, spec/41_jalr_loads.md, spec/42_system.md, spec/43_upper_imm.md,
spec/44_register.md, spec/45_jal.md, spec/46_branch.md, spec/47_store.md, spec/48_fence.md). -/
def Obligations.KnownWordsDecode : Prop :=
  decode 0xFFF30293#32 = .ok (.addi 5#5 6#5 (-1#12)) ∧
    decode 0x41F35293#32 = .ok (.srai 5#5 6#5 31#5) ∧
    decode 0xFFD300E7#32 = .ok (.jalr 1#5 6#5 (-3#12)) ∧
    decode 0x00235283#32 = .ok (.lhu 5#5 6#5 2#12) ∧
    decode 0x800312F3#32 = .ok (.csrrw 5#5 0x800#12 6#5) ∧
    decode 0xC01FF2F3#32 = .ok (.csrrci 5#5 0xC01#12 31#5) ∧
    decode 0x12345297#32 = .ok (.auipc 5#5 0x12345#20) ∧
    decode 0x407302B3#32 = .ok (.sub 5#5 6#5 7#5) ∧
    decode 0x344120EF#32 = .ok (.jal 1#5 0x12344#21) ∧
    decode 0x2A734EE3#32 = .ok (.blt 6#5 7#5 0xABC#13) ∧
    decode 0x7A7322A3#32 = .ok (.sw 7#5 6#5 0x7A5#12) ∧
    decode 0x0120000F#32 = .ok (.fence ⟨false, false, false, true⟩ ⟨false, false, true, false⟩)

/-! ## The step -/

/-- A running hart executes the instruction that the word fetched at pc decodes to (spec/10_state.md, Program
counter, spec/20_memory.md, Instruction fetch, spec/48_fence.md, FENCE.I). -/
def Obligations.StepRunsDecoded : Prop :=
  ∀ (s : State) (i : Instr), s.trap = none → s.pc.toNat % 4 = 0 → AllValid s .fetch s.pc 4 →
    decode (s.fetchWordAt s.pc) = .ok i → WellFormed i = true →
    step s = exec i s ∧
    ((∀ k, k < 4 → findAt (s.pc + BitVec.ofNat 32 k).toNat s.unsynced = none) →
      s.fetchWordAt s.pc = BitVec.ofNat 32 (bytesValue s s.pc 4))

/-- A fetch at a pc that is no multiple of 4, or that touches an address not valid for fetch, raises (R25,
R282). That `MEM_VALID` is a list of holes is the model's form (log entry 16). -/
def Obligations.FetchRaises : Prop :=
  ∀ s : State, s.trap = none →
    (s.pc.toNat % 4 ≠ 0 →
      ∃ t, step s = .next t ∧ TrappedOnly s t .instructionAddressMisaligned 0 s.pc) ∧
    (s.pc.toNat % 4 = 0 → ¬ AllValid s .fetch s.pc 4 →
      ∃ t, step s = .next t ∧ TrappedOnly s t .instructionAccessFault 1 s.pc) ∧
    (s.platform.holes = [] → AllValid s .fetch s.pc 4)

/-- IllegalInstruction is raised by a word with no row, and by a CSR form on a missing or read-only CSR (R283).
-/
def Obligations.IllegalInstructionCauses : Prop :=
  (∀ (s : State) (w : Word), s.trap = none → s.fetch = .ok w → (∀ r ∈ rows, w &&& r.mask ≠ r.pattern) →
      ∃ t, step s = .next t ∧ TrappedOnly s t .illegalInstruction 2 w) ∧
    ∀ (s : State) (rd rs1 : Reg) (c : CsrNum) (imm5 : BitVec 5),
      (¬ CsrExists s c ∨ ¬ CsrMayWrite s c →
        RaisesIllegal (.csrrw rd c rs1) s ∧ RaisesIllegal (.csrrwi rd c imm5) s) ∧
      (¬ CsrExists s c ∨ (rs1 ≠ 0#5 ∧ ¬ CsrMayWrite s c) →
        RaisesIllegal (.csrrs rd c rs1) s ∧ RaisesIllegal (.csrrc rd c rs1) s) ∧
      (¬ CsrExists s c ∨ (imm5 ≠ 0#5 ∧ ¬ CsrMayWrite s c) →
        RaisesIllegal (.csrrsi rd c imm5) s ∧ RaisesIllegal (.csrrci rd c imm5) s)

/-- An instruction word that the environment places at pc is what the next step runs
(spec/70_reset_and_hazards.md, Reset, spec/20_memory.md, Instruction fetch). `withFetchWord` stands for the boot
image (log entry 13). -/
def Obligations.PlacedWordRuns : Prop :=
  ∀ (s : State) (w : Word), s.pc.toNat % 4 = 0 → AllValid s .fetch s.pc 4 →
    (s.withFetchWord 32 w.toNat).fetch = .ok w ∧
    (∀ i, decode w = .ok i → step (s.withFetchWord 32 w.toNat) = exec i (s.withFetchWord 32 w.toNat)) ∧
    (∀ a : Word, (∀ k, k < 4 → a ≠ s.pc + BitVec.ofNat 32 k) →
      (s.withFetchWord 32 w.toNat).byteAt a = s.byteAt a) ∧
    (∀ r : Reg, (s.withFetchWord 32 w.toNat).reg r = s.reg r) ∧
    (s.withFetchWord 32 w.toNat).pc = s.pc

/-- A fetch sees the byte in memory, or at an unsynced address possibly the byte from when unsynced was last
empty (spec/48_fence.md, FENCE.I, spec/10_state.md, Hidden state the instructions expose). -/
def Obligations.FetchSeesCurrentOrOldByte : Prop :=
  ∀ (base s : State) (a : Word), OldBytesFrom base s →
    (findAt a.toNat s.unsynced = none → s.fetchByte a = s.byteAt a) ∧
    (findAt a.toNat s.unsynced ≠ none → s.fetchByte a = s.byteAt a ∨ s.fetchByte a = base.byteAt a)

/-- Every instruction but FENCE.I keeps the old bytes; FENCE.I makes the present memory the old bytes
(spec/48_fence.md, FENCE.I, spec/47_store.md, Common part). -/
def Obligations.OldBytesStayUntilFenceI : Prop :=
  (∀ s : State, s.unsynced = [] → OldBytesFrom s s) ∧
    (∀ (i : Instr) (base s t : State), OldBytesFrom base s → exec i s = .next t → i ≠ .fenceI →
      OldBytesFrom base t) ∧
    ∀ s t : State, exec .fenceI s = .next t → OldBytesFrom t t

/-- Every instruction and every step of a running hart answers a next state; only a stopped hart has none
(spec/10_state.md, Program counter, spec/60_exceptions.md, Traps). That a stopped hart answers `runEnded` is the
model's form (log entry 11). -/
def Obligations.RunningHartAlwaysSteps : Prop :=
  (∀ (i : Instr) (s : State), ∃ t, exec i s = .next t) ∧
    (∀ s : State, s.trap = none → ∃ t, step s = .next t) ∧
    ∀ (s : State) (r : TrapRecord), s.trap = some r → step s = .fault .runEnded

/-! ## State, traps and counters -/

/-- A register reads as last written, other registers are unchanged, and x0 reads 0 and discards writes
(spec/10_state.md, General registers). -/
def Obligations.RegisterReadAfterWrite : Prop :=
  ∀ (s : State) (i j : Reg) (v : Word),
    (i ≠ 0#5 → (s.setReg i v).reg i = v) ∧ (j ≠ i → (s.setReg i v).reg j = s.reg j) ∧
    (s.setReg i v).reg 0#5 = 0#32

/-- What reset leaves: the state the spec fixes, and the default platform, which is the model's choice (log
entry 5) (spec/10_state.md, The state record and its reset values, spec/70_reset_and_hazards.md, Reset,
spec/00_scope.md, Implementation parameters). -/
def Obligations.ResetState : Prop :=
  State.reset.reg 0#5 = 0#32 ∧ State.reset.pc.toNat % 4 = 0 ∧ State.reset.unsynced = [] ∧
    State.reset.trap = none ∧ (∀ c : CsrNum, CsrExists State.reset c ↔ c ∈ counterCsrs) ∧
    (∀ (b : Nat) (kind : AccessKind), memValid State.reset.platform b kind = true) ∧
    State.reset.platform.misaligned = .split ∧ State.reset.platform.ecallCause = 11

/-- The invariant holds after reset (spec/10_state.md, Program counter, spec/10_state.md, The state record and
its reset values). -/
def Obligations.ResetMeetsInvariant : Prop :=
  State.reset.Inv

/-- Every step keeps pc a multiple of 4 and the canonical form of memory and of the unsynced set
(spec/10_state.md, Program counter, spec/20_memory.md, Instruction fetch). -/
def Obligations.StepKeepsInvariant : Prop :=
  ∀ s t : State, s.Inv → step s = .next t → t.Inv

/-- A step that traps stops the hart with the record, in the state before the raising instruction began
(spec/60_exceptions.md, Traps, spec/60_exceptions.md, The exceptions). That a stopped hart answers `runEnded` is
the model's form (log entry 11). -/
def Obligations.TrapLeavesStateOfBefore : Prop :=
  ∀ (s t : State) (r : TrapRecord), s.trap = none → step s = .next t → t.trap = some r →
    TrappedOnly s t r.cause (r.cause.code s.platform) r.info ∧ step t = .fault .runEnded

/-- A trap comes from the fetch, from decode, or is one the executed instruction can raise
(spec/60_exceptions.md, The exceptions, spec/60_exceptions.md, Traps). -/
def Obligations.TrapCauseByInstruction : Prop :=
  ∀ (s t : State) (r : TrapRecord), s.trap = none → step s = .next t → t.trap = some r →
    (r.cause = .instructionAddressMisaligned ∧ s.pc.toNat % 4 ≠ 0 ∧ r.info = s.pc) ∨
    (r.cause = .instructionAccessFault ∧ ¬ AllValid s .fetch s.pc 4 ∧ r.info = s.pc) ∨
    (r.cause = .illegalInstruction ∧ IllegalWord (s.fetchWordAt s.pc) ∧ r.info = s.fetchWordAt s.pc) ∨
    ∃ i, decode (s.fetchWordAt s.pc) = .ok i ∧ r.cause ∈ mayRaise i

/-- instret starts at INSTRET0, counts retired instructions exactly, and a read sees the count before itself
(R32). -/
def Obligations.InstretCountsRetired : Prop :=
  State.reset.instretCtr = Config.instret0 ∧
    (∀ (i : Instr) (s t : State), s.trap = none → exec i s = .next t →
      t.instretCtr = if t.trap = none then s.instretCtr + 1#64 else s.instretCtr) ∧
    ∀ (s : State) (rd : Reg),
      Writes (.csrrs rd 0xC02#12 0#5) s rd (BitVec.ofNat 32 s.instretCtr.toNat) ∧
      Writes (.csrrc rd 0xC02#12 0#5) s rd (BitVec.ofNat 32 s.instretCtr.toNat) ∧
      Writes (.csrrsi rd 0xC02#12 0#5) s rd (BitVec.ofNat 32 s.instretCtr.toNat) ∧
      Writes (.csrrci rd 0xC02#12 0#5) s rd (BitVec.ofNat 32 s.instretCtr.toNat) ∧
      Writes (.csrrs rd 0xC82#12 0#5) s rd (BitVec.ofNat 32 (s.instretCtr.toNat / 2 ^ 32)) ∧
      Writes (.csrrc rd 0xC82#12 0#5) s rd (BitVec.ofNat 32 (s.instretCtr.toNat / 2 ^ 32)) ∧
      Writes (.csrrsi rd 0xC82#12 0#5) s rd (BitVec.ofNat 32 (s.instretCtr.toNat / 2 ^ 32)) ∧
      Writes (.csrrci rd 0xC82#12 0#5) s rd (BitVec.ofNat 32 (s.instretCtr.toNat / 2 ^ 32))

/-- A run of k steps that does not trap retires exactly k instructions, from any state that meets the invariant
(spec/10_state.md, Control and status registers, spec/10_state.md, Program counter). -/
def Obligations.RunCountsItsInstructions : Prop :=
  ∀ (k : Nat) (s t : State), s.Inv → Reaches k s t → t.trap = none →
    t.instretCtr = s.instretCtr + BitVec.ofNat 64 k ∧ t.Inv

/-- Every instruction but JAL, JALR and a taken branch goes on at pc + 4, modulo 2^32 (R26). -/
def Obligations.SequencingByFour : Prop :=
  ∀ (i : Instr) (s t : State), s.trap = none → exec i s = .next t → t.trap = none → ¬ transfers s i →
    t.pc.toNat = (s.pc.toNat + 4) % 2 ^ 32

/-- No step changes a parameter, adds a CSR of the platform, changes its right or behaviour, or changes a read-
only storage CSR of the platform (spec/00_scope.md, Implementation parameters, spec/10_state.md, Control and
status registers). The model's choices: log entries 5 and 6. -/
def Obligations.PlatformAndCsrRightsKept : Prop :=
  ∀ s t : State, step s = .next t →
    t.platform = s.platform ∧
    (∀ c : CsrNum,
      (findCsr c t.extCsrs).map (fun cell => (cell.writable, cell.behaviour)) =
        (findCsr c s.extCsrs).map (fun cell => (cell.writable, cell.behaviour)) ∧
      ∀ v, findCsr c s.extCsrs = some { writable := false, behaviour := .storage, value := v } →
        findCsr c t.extCsrs = some { writable := false, behaviour := .storage, value := v }) ∧
    ∀ i, decode (s.fetchWordAt s.pc) = .ok i → isCsrAccess i = false → t.extCsrs = s.extCsrs

/-- Only SW, SH and SB change memory, and only they and FENCE.I change the unsynced set (spec/10_state.md,
Memory, spec/20_memory.md, Access widths, spec/20_memory.md, Memory ordering). -/
def Obligations.OnlyStoresWriteMemory : Prop :=
  ∀ (i : Instr) (s t : State), exec i s = .next t → isStore i = false →
    (∀ a : Word, t.byteAt a = s.byteAt a) ∧ (i ≠ .fenceI → t.unsynced = s.unsynced)

/-- An instruction changes no register but the one its rd field names, and branches, stores, fences and traps
change none (spec/10_state.md, General registers). -/
def Obligations.OnlyDestinationChanges : Prop :=
  ∀ (i : Instr) (s t : State) (r : Reg), s.trap = none → exec i s = .next t →
    destination i ≠ some r ∨ t.trap ≠ none → t.reg r = s.reg r

/-- No instruction writes cycle or time: each keeps its value or is sampled (spec/60_exceptions.md, Timers and
counters, spec/10_state.md, Control and status registers). -/
def Obligations.CountersAreOnlySampled : Prop :=
  ∀ (i : Instr) (s t : State), exec i s = .next t →
    (t.cycleCtr = s.cycleCtr ∨ t.cycleCtr = Config.cycleDraw s.draws s.cycleCtr) ∧
    (t.timeCtr = s.timeCtr ∨ t.timeCtr = Config.timeDraw s.draws s.timeCtr)

/-- After SW, LW reads the word back, LHU each halfword of it and LBU each byte of it, little-endian
(spec/20_memory.md, Byte order, spec/20_memory.md, Memory ordering). -/
def Obligations.StoredWordReadsBack : Prop :=
  ∀ (rs2 rs1 rd r : Reg) (imm imm' : BitVec 12) (s t u : State) (k : Nat),
    exec (.sw rs2 rs1 imm) s = .next t → t.trap = none → u.trap = none → rd ≠ 0#5 →
    t.effAddr r imm' = s.effAddr rs1 imm + BitVec.ofNat 32 k →
    (k = 0 → exec (.lw rd r imm') t = .next u → u.reg rd = s.reg rs2) ∧
    (k < 3 → exec (.lhu rd r imm') t = .next u →
      u.reg rd = BitVec.setWidth 32 ((s.reg rs2).extractLsb' (8 * k) 16)) ∧
    (k < 4 → exec (.lbu rd r imm') t = .next u →
      u.reg rd = BitVec.setWidth 32 ((s.reg rs2).extractLsb' (8 * k) 8))

/-- The effective address is x[rs1] plus the sign-extended 12-bit immediate, modulo 2^32 (spec/20_memory.md,
Effective address). -/
def Obligations.EffectiveAddress : Prop :=
  ∀ (s : State) (rs1 : Reg) (imm12 : BitVec 12),
    s.effAddr rs1 imm12 = BitVec.ofInt 32 ((s.reg rs1).toNat + imm12.toInt)

/-! ## Register-immediate instructions -/

/-- ADDI writes x[rs1] + sext(imm12), modulo 2^32 (R120). -/
def Obligations.AddiSums : Prop :=
  ∀ (s : State) (rd rs1 : Reg) (imm12 : BitVec 12),
    encode (.addi rd rs1 imm12) = imm12 ++ rs1 ++ 0b000#3 ++ rd ++ 0b0010011#7 ∧
    Writes (.addi rd rs1 imm12) s rd (BitVec.ofInt 32 ((s.reg rs1).toInt + imm12.toInt))

/-- SLTI compares signed and SLTIU unsigned with the sign-extended immediate, writing 1 or 0 (R121, R122). -/
def Obligations.SltiSltiuCompare : Prop :=
  ∀ (s : State) (rd rs1 : Reg) (imm12 : BitVec 12),
    encode (.slti rd rs1 imm12) = imm12 ++ rs1 ++ 0b010#3 ++ rd ++ 0b0010011#7 ∧
    encode (.sltiu rd rs1 imm12) = imm12 ++ rs1 ++ 0b011#3 ++ rd ++ 0b0010011#7 ∧
    Writes (.slti rd rs1 imm12) s rd (if (s.reg rs1).toInt < imm12.toInt then 1#32 else 0#32) ∧
    Writes (.sltiu rd rs1 imm12) s rd
      (if (s.reg rs1).toNat < (BitVec.ofInt 32 imm12.toInt).toNat then 1#32 else 0#32)

/-- XORI, ORI and ANDI combine x[rs1] bit by bit with the sign-extended immediate (R123, R124, R125). -/
def Obligations.LogicImmediatesBitwise : Prop :=
  ∀ (s : State) (rd rs1 : Reg) (imm12 : BitVec 12),
    encode (.xori rd rs1 imm12) = imm12 ++ rs1 ++ 0b100#3 ++ rd ++ 0b0010011#7 ∧
    encode (.ori rd rs1 imm12) = imm12 ++ rs1 ++ 0b110#3 ++ rd ++ 0b0010011#7 ∧
    encode (.andi rd rs1 imm12) = imm12 ++ rs1 ++ 0b111#3 ++ rd ++ 0b0010011#7 ∧
    (∃ v : Word, Writes (.xori rd rs1 imm12) s rd v ∧
      ∀ k, k < 32 → v.getLsbD k = ((s.reg rs1).getLsbD k ^^ imm12.getLsbD (min k 11))) ∧
    (∃ v : Word, Writes (.ori rd rs1 imm12) s rd v ∧
      ∀ k, k < 32 → v.getLsbD k = ((s.reg rs1).getLsbD k || imm12.getLsbD (min k 11))) ∧
    ∃ v : Word, Writes (.andi rd rs1 imm12) s rd v ∧
      ∀ k, k < 32 → v.getLsbD k = ((s.reg rs1).getLsbD k && imm12.getLsbD (min k 11))

/-- SLLI multiplies, SRLI divides unsigned and SRAI divides signed, rounding down, by 2 to the literal (R126,
R127, R128). -/
def Obligations.ShiftImmediates : Prop :=
  ∀ (s : State) (rd rs1 : Reg) (imm5 : BitVec 5),
    encode (.slli rd rs1 imm5) = 0b0000000#7 ++ imm5 ++ rs1 ++ 0b001#3 ++ rd ++ 0b0010011#7 ∧
    encode (.srli rd rs1 imm5) = 0b0000000#7 ++ imm5 ++ rs1 ++ 0b101#3 ++ rd ++ 0b0010011#7 ∧
    encode (.srai rd rs1 imm5) = 0b0100000#7 ++ imm5 ++ rs1 ++ 0b101#3 ++ rd ++ 0b0010011#7 ∧
    Writes (.slli rd rs1 imm5) s rd (BitVec.ofNat 32 ((s.reg rs1).toNat * 2 ^ imm5.toNat)) ∧
    Writes (.srli rd rs1 imm5) s rd (BitVec.ofNat 32 ((s.reg rs1).toNat / 2 ^ imm5.toNat)) ∧
    Writes (.srai rd rs1 imm5) s rd (BitVec.ofInt 32 (Int.fdiv (s.reg rs1).toInt (2 ^ imm5.toNat)))

/-! ## Register-register instructions -/

/-- ADD writes the sum and SUB the difference rs1 minus rs2, modulo 2^32 (R190, R191). -/
def Obligations.AddSub : Prop :=
  ∀ (s : State) (rd rs1 rs2 : Reg),
    encode (.add rd rs1 rs2) = 0b0000000#7 ++ rs2 ++ rs1 ++ 0b000#3 ++ rd ++ 0b0110011#7 ∧
    encode (.sub rd rs1 rs2) = 0b0100000#7 ++ rs2 ++ rs1 ++ 0b000#3 ++ rd ++ 0b0110011#7 ∧
    Writes (.add rd rs1 rs2) s rd (BitVec.ofNat 32 ((s.reg rs1).toNat + (s.reg rs2).toNat)) ∧
    Writes (.sub rd rs1 rs2) s rd (BitVec.ofInt 32 ((s.reg rs1).toInt - (s.reg rs2).toInt))

/-- SLT compares x[rs1] and x[rs2] signed and SLTU unsigned, writing 1 or 0 (R192, R193). -/
def Obligations.SltSltuCompare : Prop :=
  ∀ (s : State) (rd rs1 rs2 : Reg),
    encode (.slt rd rs1 rs2) = 0b0000000#7 ++ rs2 ++ rs1 ++ 0b010#3 ++ rd ++ 0b0110011#7 ∧
    encode (.sltu rd rs1 rs2) = 0b0000000#7 ++ rs2 ++ rs1 ++ 0b011#3 ++ rd ++ 0b0110011#7 ∧
    Writes (.slt rd rs1 rs2) s rd (if (s.reg rs1).toInt < (s.reg rs2).toInt then 1#32 else 0#32) ∧
    Writes (.sltu rd rs1 rs2) s rd (if (s.reg rs1).toNat < (s.reg rs2).toNat then 1#32 else 0#32)

/-- AND, OR and XOR combine x[rs1] and x[rs2] bit by bit (R194, R195, R196). -/
def Obligations.LogicRegistersBitwise : Prop :=
  ∀ (s : State) (rd rs1 rs2 : Reg),
    encode (.and rd rs1 rs2) = 0b0000000#7 ++ rs2 ++ rs1 ++ 0b111#3 ++ rd ++ 0b0110011#7 ∧
    encode (.or rd rs1 rs2) = 0b0000000#7 ++ rs2 ++ rs1 ++ 0b110#3 ++ rd ++ 0b0110011#7 ∧
    encode (.xor rd rs1 rs2) = 0b0000000#7 ++ rs2 ++ rs1 ++ 0b100#3 ++ rd ++ 0b0110011#7 ∧
    (∃ v : Word, Writes (.and rd rs1 rs2) s rd v ∧
      ∀ k, k < 32 → v.getLsbD k = ((s.reg rs1).getLsbD k && (s.reg rs2).getLsbD k)) ∧
    (∃ v : Word, Writes (.or rd rs1 rs2) s rd v ∧
      ∀ k, k < 32 → v.getLsbD k = ((s.reg rs1).getLsbD k || (s.reg rs2).getLsbD k)) ∧
    ∃ v : Word, Writes (.xor rd rs1 rs2) s rd v ∧
      ∀ k, k < 32 → v.getLsbD k = ((s.reg rs1).getLsbD k ^^ (s.reg rs2).getLsbD k)

/-- SLL, SRL and SRA shift x[rs1] by the low five bits of x[rs2] (R197, R198, R199). -/
def Obligations.ShiftRegisters : Prop :=
  ∀ (s : State) (rd rs1 rs2 : Reg),
    encode (.sll rd rs1 rs2) = 0b0000000#7 ++ rs2 ++ rs1 ++ 0b001#3 ++ rd ++ 0b0110011#7 ∧
    encode (.srl rd rs1 rs2) = 0b0000000#7 ++ rs2 ++ rs1 ++ 0b101#3 ++ rd ++ 0b0110011#7 ∧
    encode (.sra rd rs1 rs2) = 0b0100000#7 ++ rs2 ++ rs1 ++ 0b101#3 ++ rd ++ 0b0110011#7 ∧
    Writes (.sll rd rs1 rs2) s rd
      (BitVec.ofNat 32 ((s.reg rs1).toNat * 2 ^ ((s.reg rs2).toNat % 32))) ∧
    Writes (.srl rd rs1 rs2) s rd
      (BitVec.ofNat 32 ((s.reg rs1).toNat / 2 ^ ((s.reg rs2).toNat % 32))) ∧
    Writes (.sra rd rs1 rs2) s rd
      (BitVec.ofInt 32 (Int.fdiv (s.reg rs1).toInt (2 ^ ((s.reg rs2).toNat % 32))))

/-! ## Upper immediates and jumps -/

/-- LUI writes imm20 in bits 31:12, and AUIPC adds that to its own address (R180, R181). -/
def Obligations.LuiAuipc : Prop :=
  ∀ (s : State) (rd : Reg) (imm20 : BitVec 20),
    encode (.lui rd imm20) = imm20 ++ rd ++ 0b0110111#7 ∧
    encode (.auipc rd imm20) = imm20 ++ rd ++ 0b0010111#7 ∧
    Writes (.lui rd imm20) s rd (BitVec.ofNat 32 (imm20.toNat * 2 ^ 12)) ∧
    Writes (.auipc rd imm20) s rd (BitVec.ofNat 32 (s.pc.toNat + imm20.toNat * 2 ^ 12))

/-- JALR goes to x[rs1] + sext(imm12) with bit 0 cleared and links pc + 4, or raises on a misaligned target
(R140). -/
def Obligations.JalrJumpsAndLinks : Prop :=
  ∀ (s : State) (rd rs1 : Reg) (imm12 : BitVec 12),
    encode (.jalr rd rs1 imm12) = imm12 ++ rs1 ++ 0b000#3 ++ rd ++ 0b1100111#7 ∧
    ∃ t, exec (.jalr rd rs1 imm12) s = .next t ∧
      Transferred s t rd (s.pc + 4#32)
        (BitVec.ofNat 32 (2 * ((BitVec.ofInt 32 ((s.reg rs1).toInt + imm12.toInt)).toNat / 2)))

/-- JAL goes to pc + sext(imm21) and links pc + 4, or raises on a misaligned target (R210). -/
def Obligations.JalJumpsAndLinks : Prop :=
  ∀ (s : State) (rd : Reg) (imm21 : BitVec 21),
    encode (.jal rd imm21) = imm21.extractLsb' 20 1 ++ imm21.extractLsb' 1 10 ++ imm21.extractLsb' 11 1 ++
      imm21.extractLsb' 12 8 ++ rd ++ 0b1101111#7 ∧
    ∃ t, exec (.jal rd imm21) s = .next t ∧
      Transferred s t rd (s.pc + 4#32) (BitVec.ofInt 32 (s.pc.toInt + imm21.toInt))

/-! ## Loads and stores -/

/-- LW writes the little-endian word at the effective address, or raises what a load of 4 bytes raises (R142).
-/
def Obligations.LoadWord : Prop :=
  ∀ (s : State) (rd rs1 : Reg) (imm12 : BitVec 12),
    encode (.lw rd rs1 imm12) = imm12 ++ rs1 ++ 0b010#3 ++ rd ++ 0b0000011#7 ∧
    Loads (.lw rd rs1 imm12) s rd (s.effAddr rs1 imm12) 4
      (BitVec.ofNat 32 (bytesValue s (s.effAddr rs1 imm12) 4))

/-- LH sign-extends and LHU zero-extends the little-endian halfword at the effective address, or each raises
(R143, R144). -/
def Obligations.LoadHalf : Prop :=
  ∀ (s : State) (rd rs1 : Reg) (imm12 : BitVec 12),
    encode (.lh rd rs1 imm12) = imm12 ++ rs1 ++ 0b001#3 ++ rd ++ 0b0000011#7 ∧
    encode (.lhu rd rs1 imm12) = imm12 ++ rs1 ++ 0b101#3 ++ rd ++ 0b0000011#7 ∧
    Loads (.lh rd rs1 imm12) s rd (s.effAddr rs1 imm12) 2
      (BitVec.ofInt 32 (BitVec.ofNat 16 (bytesValue s (s.effAddr rs1 imm12) 2)).toInt) ∧
    Loads (.lhu rd rs1 imm12) s rd (s.effAddr rs1 imm12) 2
      (BitVec.ofNat 32 (bytesValue s (s.effAddr rs1 imm12) 2))

/-- LB sign-extends and LBU zero-extends the byte at the effective address, or each raises an access fault
(R145, R146). -/
def Obligations.LoadByte : Prop :=
  ∀ (s : State) (rd rs1 : Reg) (imm12 : BitVec 12),
    encode (.lb rd rs1 imm12) = imm12 ++ rs1 ++ 0b000#3 ++ rd ++ 0b0000011#7 ∧
    encode (.lbu rd rs1 imm12) = imm12 ++ rs1 ++ 0b100#3 ++ rd ++ 0b0000011#7 ∧
    ¬ RaisesMisaligned s (s.effAddr rs1 imm12) 1 ∧
    Loads (.lb rd rs1 imm12) s rd (s.effAddr rs1 imm12) 1
      (BitVec.ofInt 32 (s.byteAt (s.effAddr rs1 imm12)).toInt) ∧
    Loads (.lbu rd rs1 imm12) s rd (s.effAddr rs1 imm12) 1
      (BitVec.ofNat 32 (s.byteAt (s.effAddr rs1 imm12)).toNat)

/-- SW stores all 32 bits of x[rs2] little-endian at the effective address, or raises and stores nothing (R230).
-/
def Obligations.StoreWord : Prop :=
  ∀ (s : State) (rs2 rs1 : Reg) (imm12 : BitVec 12),
    encode (.sw rs2 rs1 imm12) =
      imm12.extractLsb' 5 7 ++ rs2 ++ rs1 ++ 0b010#3 ++ imm12.extractLsb' 0 5 ++ 0b0100011#7 ∧
    Stores (.sw rs2 rs1 imm12) s (s.effAddr rs1 imm12) 4 (s.reg rs2)

/-- SH stores the low 16 bits of x[rs2] little-endian at the effective address, or raises and stores nothing
(R231). -/
def Obligations.StoreHalf : Prop :=
  ∀ (s : State) (rs2 rs1 : Reg) (imm12 : BitVec 12),
    encode (.sh rs2 rs1 imm12) =
      imm12.extractLsb' 5 7 ++ rs2 ++ rs1 ++ 0b001#3 ++ imm12.extractLsb' 0 5 ++ 0b0100011#7 ∧
    Stores (.sh rs2 rs1 imm12) s (s.effAddr rs1 imm12) 2 (s.reg rs2)

/-- SB stores the low 8 bits of x[rs2] little-endian at the effective address, or raises and stores nothing
(R232). -/
def Obligations.StoreByte : Prop :=
  ∀ (s : State) (rs2 rs1 : Reg) (imm12 : BitVec 12),
    encode (.sb rs2 rs1 imm12) =
      imm12.extractLsb' 5 7 ++ rs2 ++ rs1 ++ 0b000#3 ++ imm12.extractLsb' 0 5 ++ 0b0100011#7 ∧
    ¬ RaisesMisaligned s (s.effAddr rs1 imm12) 1 ∧
    Stores (.sb rs2 rs1 imm12) s (s.effAddr rs1 imm12) 1 (s.reg rs2)

/-! ## Branches -/

/-- BEQ branches if all 32 bits are equal, BNE if some bit differs (R216, R217). -/
def Obligations.BranchEqual : Prop :=
  ∀ (s : State) (rs1 rs2 : Reg) (imm13 : BitVec 13),
    encode (.beq rs1 rs2 imm13) =
      imm13.extractLsb' 12 1 ++ imm13.extractLsb' 5 6 ++ rs2 ++ rs1 ++ 0b000#3 ++ imm13.extractLsb' 1 4 ++
        imm13.extractLsb' 11 1 ++ 0b1100011#7 ∧
    encode (.bne rs1 rs2 imm13) =
      imm13.extractLsb' 12 1 ++ imm13.extractLsb' 5 6 ++ rs2 ++ rs1 ++ 0b001#3 ++ imm13.extractLsb' 1 4 ++
        imm13.extractLsb' 11 1 ++ 0b1100011#7 ∧
    (∃ t, exec (.beq rs1 rs2 imm13) s = .next t ∧ Branched s t (decide (s.reg rs1 = s.reg rs2)) imm13) ∧
    ∃ t, exec (.bne rs1 rs2 imm13) s = .next t ∧ Branched s t (decide (s.reg rs1 ≠ s.reg rs2)) imm13

/-- BLT branches if x[rs1] is below x[rs2] as signed numbers, BGE if it is not (R218, R220). -/
def Obligations.BranchSigned : Prop :=
  ∀ (s : State) (rs1 rs2 : Reg) (imm13 : BitVec 13),
    encode (.blt rs1 rs2 imm13) =
      imm13.extractLsb' 12 1 ++ imm13.extractLsb' 5 6 ++ rs2 ++ rs1 ++ 0b100#3 ++ imm13.extractLsb' 1 4 ++
        imm13.extractLsb' 11 1 ++ 0b1100011#7 ∧
    encode (.bge rs1 rs2 imm13) =
      imm13.extractLsb' 12 1 ++ imm13.extractLsb' 5 6 ++ rs2 ++ rs1 ++ 0b101#3 ++ imm13.extractLsb' 1 4 ++
        imm13.extractLsb' 11 1 ++ 0b1100011#7 ∧
    (∃ t, exec (.blt rs1 rs2 imm13) s = .next t ∧ Branched s t (decide ((s.reg rs1).toInt < (s.reg rs2).toInt)) imm13) ∧
    ∃ t, exec (.bge rs1 rs2 imm13) s = .next t ∧ Branched s t (decide ((s.reg rs1).toInt ≥ (s.reg rs2).toInt)) imm13

/-- BLTU branches if x[rs1] is below x[rs2] as unsigned numbers, BGEU if it is not (R219, R221). -/
def Obligations.BranchUnsigned : Prop :=
  ∀ (s : State) (rs1 rs2 : Reg) (imm13 : BitVec 13),
    encode (.bltu rs1 rs2 imm13) =
      imm13.extractLsb' 12 1 ++ imm13.extractLsb' 5 6 ++ rs2 ++ rs1 ++ 0b110#3 ++ imm13.extractLsb' 1 4 ++
        imm13.extractLsb' 11 1 ++ 0b1100011#7 ∧
    encode (.bgeu rs1 rs2 imm13) =
      imm13.extractLsb' 12 1 ++ imm13.extractLsb' 5 6 ++ rs2 ++ rs1 ++ 0b111#3 ++ imm13.extractLsb' 1 4 ++
        imm13.extractLsb' 11 1 ++ 0b1100011#7 ∧
    (∃ t, exec (.bltu rs1 rs2 imm13) s = .next t ∧ Branched s t (decide ((s.reg rs1).toNat < (s.reg rs2).toNat)) imm13) ∧
    ∃ t, exec (.bgeu rs1 rs2 imm13) s = .next t ∧ Branched s t (decide ((s.reg rs1).toNat ≥ (s.reg rs2).toNat)) imm13

/-! ## System instructions -/

/-- CSRRW puts x[rs1] into a writable CSR and its old value into rd, and raises IllegalInstruction otherwise
(spec/42_system.md, CSRRW, spec/42_system.md, CSR access primitives). How far the side effects of a custom CSR
of the platform reach is the model's reading (log entry 6). -/
def Obligations.CsrrwWrites : Prop :=
  ∀ (s : State) (rd : Reg) (c : CsrNum) (rs1 : Reg),
    encode (.csrrw rd c rs1) = c ++ rs1 ++ 0b001#3 ++ rd ++ 0b1110011#7 ∧
    WritesAndMayRead (.csrrw rd c rs1) s rd c (s.reg rs1)

/-- CSRRWI puts its literal into a writable CSR, also a zero literal, and raises IllegalInstruction otherwise
(spec/42_system.md, CSRRWI, CSRRSI, CSRRCI, spec/42_system.md, CSR access primitives). How far the side effects
of a custom CSR of the platform reach is the model's reading (log entry 6). -/
def Obligations.CsrrwiWrites : Prop :=
  ∀ (s : State) (rd : Reg) (c : CsrNum) (imm5 : BitVec 5),
    encode (.csrrwi rd c imm5) = c ++ imm5 ++ 0b101#3 ++ rd ++ 0b1110011#7 ∧
    WritesAndMayRead (.csrrwi rd c imm5) s rd c (BitVec.ofNat 32 imm5.toNat)

/-- CSRRS and CSRRC read a CSR into rd and, unless the rs1 field is 0, set or clear the bits of x[rs1] in it
(spec/42_system.md, CSRRS, spec/42_system.md, CSRRC, spec/42_system.md, CSR access primitives). How far the side
effects of a custom CSR of the platform reach is the model's reading (log entry 6). -/
def Obligations.CsrrsCsrrcRead : Prop :=
  ∀ (s : State) (rd : Reg) (c : CsrNum) (rs1 : Reg),
    encode (.csrrs rd c rs1) = c ++ rs1 ++ 0b010#3 ++ rd ++ 0b1110011#7 ∧
    encode (.csrrc rd c rs1) = c ++ rs1 ++ 0b011#3 ++ rd ++ 0b1110011#7 ∧
    ReadsAndMayWrite (.csrrs rd c rs1) s rd c (rs1 ≠ 0#5) (fun v => v ||| s.reg rs1) ∧
    ReadsAndMayWrite (.csrrc rd c rs1) s rd c (rs1 ≠ 0#5) (fun v => v &&& ~~~(s.reg rs1))

/-- CSRRSI and CSRRCI read a CSR into rd and, unless the literal is 0, set or clear the literal's bits in it
(spec/42_system.md, CSRRWI, CSRRSI, CSRRCI, spec/42_system.md, CSR access primitives). How far the side effects
of a custom CSR of the platform reach is the model's reading (log entry 6). -/
def Obligations.CsrrsiCsrrciRead : Prop :=
  ∀ (s : State) (rd : Reg) (c : CsrNum) (imm5 : BitVec 5),
    encode (.csrrsi rd c imm5) = c ++ imm5 ++ 0b110#3 ++ rd ++ 0b1110011#7 ∧
    encode (.csrrci rd c imm5) = c ++ imm5 ++ 0b111#3 ++ rd ++ 0b1110011#7 ∧
    ReadsAndMayWrite (.csrrsi rd c imm5) s rd c (imm5 ≠ 0#5) (fun v => v ||| BitVec.ofNat 32 imm5.toNat) ∧
    ReadsAndMayWrite (.csrrci rd c imm5) s rd c (imm5 ≠ 0#5) (fun v => v &&& ~~~(BitVec.ofNat 32 imm5.toNat))

/-- ECALL raises EnvironmentCall with info 0 and EBREAK raises Breakpoint with info pc, always (R168, R169). -/
def Obligations.EcallEbreakTrap : Prop :=
  ∀ s : State,
    encode .ecall = 0x00000073#32 ∧ encode .ebreak = 0x00100073#32 ∧
    Traps .ecall s .environmentCall s.platform.ecallCause 0#32 ∧
    Traps .ebreak s .breakpoint 3 s.pc

/-! ## Fences -/

/-- FENCE changes nothing but pc and the instret count, for every pair of sets (spec/48_fence.md, FENCE,
spec/20_memory.md, Memory ordering). One hart and no device (log entry 12). -/
def Obligations.FenceOnlyMovesOn : Prop :=
  ∀ (s : State) (p q : FenceSet),
    encode (.fence p q) = 0b0000#4 ++ BitVec.ofBool p.i ++ BitVec.ofBool p.o ++ BitVec.ofBool p.r ++
      BitVec.ofBool p.w ++ BitVec.ofBool q.i ++ BitVec.ofBool q.o ++ BitVec.ofBool q.r ++ BitVec.ofBool q.w ++
      0b00000#5 ++ 0b000#3 ++ 0b00000#5 ++ 0b0001111#7 ∧
    ∃ t, exec (.fence p q) s = .next t ∧ MovedOnly s t (s.pc + 4#32)

/-- FENCE.I empties unsynced, so that every later fetch sees every earlier store, and moves on (R244). -/
def Obligations.FenceISynchronises : Prop :=
  ∀ s : State, encode .fenceI = 0x0000100F#32 ∧
    ∃ t, exec .fenceI s = .next t ∧ MovedOnly { s with unsynced := [] } t (s.pc + 4#32) ∧
      (∀ a : Word, t.fetchByte a = s.byteAt a) ∧
      (∀ u : State, OldBytesFrom t u →
        ∀ a : Word, u.fetchByte a = u.byteAt a ∨ u.fetchByte a = s.byteAt a) ∧
      ∀ (k : Nat) (u : State), Reaches k t u →
        ∀ a : Word, ∃ j v, j ≤ k ∧ Reaches j t v ∧ u.fetchByte a = v.byteAt a

/-! ## Pseudo-ops -/

/-- SEQZ, NOT, SNEZ and NOP, as expanded, do what their descriptions say (R250, R251, R252, R253). -/
def Obligations.PseudoArithmetic : Prop :=
  ∀ (s : State) (rd rs : Reg),
    expand (.seqz rd rs) = .sltiu rd rs 1#12 ∧
    expand (.not rd rs) = .xori rd rs (-1#12) ∧
    expand (.snez rd rs) = .sltu rd 0#5 rs ∧
    expand .nop = .addi 0#5 0#5 0#12 ∧ encode (expand .nop) = 0x00000013#32 ∧
    Writes (expand (.seqz rd rs)) s rd (if s.reg rs = 0#32 then 1#32 else 0#32) ∧
    Writes (expand (.not rd rs)) s rd (~~~(s.reg rs)) ∧
    Writes (expand (.snez rd rs)) s rd (if s.reg rs ≠ 0#32 then 1#32 else 0#32) ∧
    ∃ t, exec (expand .nop) s = .next t ∧ MovedOnly s t (s.pc + 4#32)

/-- J, BGT, BGTU, BLE and BLEU, as expanded, jump and branch on what their names say (R254, R255, R256, R257,
R258). -/
def Obligations.PseudoBranches : Prop :=
  ∀ (s : State) (r1 r2 : Reg) (imm13 : BitVec 13) (imm21 : BitVec 21),
    expand (.j imm21) = .jal 0#5 imm21 ∧
    expand (.bgt r1 r2 imm13) = .blt r2 r1 imm13 ∧ expand (.bgtu r1 r2 imm13) = .bltu r2 r1 imm13 ∧
    expand (.ble r1 r2 imm13) = .bge r2 r1 imm13 ∧ expand (.bleu r1 r2 imm13) = .bgeu r2 r1 imm13 ∧
    (∃ t, exec (expand (.j imm21)) s = .next t ∧
      Transferred s t 0#5 0#32 (BitVec.ofInt 32 (s.pc.toInt + imm21.toInt))) ∧
    (∃ t, exec (expand (.bgt r1 r2 imm13)) s = .next t ∧
      Branched s t (decide ((s.reg r1).toInt > (s.reg r2).toInt)) imm13) ∧
    (∃ t, exec (expand (.bgtu r1 r2 imm13)) s = .next t ∧
      Branched s t (decide ((s.reg r1).toNat > (s.reg r2).toNat)) imm13) ∧
    (∃ t, exec (expand (.ble r1 r2 imm13)) s = .next t ∧
      Branched s t (decide ((s.reg r1).toInt ≤ (s.reg r2).toInt)) imm13) ∧
    ∃ t, exec (expand (.bleu r1 r2 imm13)) s = .next t ∧
      Branched s t (decide ((s.reg r1).toNat ≤ (s.reg r2).toNat)) imm13

/-- CSRR only reads; CSRW, CSRWI, CSRS, CSRSI, CSRC and CSRCI keep no read value; each is its one CSR
instruction (spec/49_pseudo_ops.md, CSR access). How far the side effects of a custom CSR of the platform reach
is the model's reading (log entry 6). -/
def Obligations.PseudoCsrAccess : Prop :=
  ∀ (s : State) (rd rs1 : Reg) (c : CsrNum) (imm5 : BitVec 5),
    expand (.csrr rd c) = .csrrs rd c 0#5 ∧ expand (.csrw c rs1) = .csrrw 0#5 c rs1 ∧
    expand (.csrwi c imm5) = .csrrwi 0#5 c imm5 ∧ expand (.csrs c rs1) = .csrrs 0#5 c rs1 ∧
    expand (.csrsi c imm5) = .csrrsi 0#5 c imm5 ∧ expand (.csrc c rs1) = .csrrc 0#5 c rs1 ∧
    expand (.csrci c imm5) = .csrrci 0#5 c imm5 ∧
    ReadsAndMayWrite (expand (.csrr rd c)) s rd c False (fun v => v) ∧
    WritesAndMayRead (expand (.csrw c rs1)) s 0#5 c (s.reg rs1) ∧
    WritesAndMayRead (expand (.csrwi c imm5)) s 0#5 c (BitVec.ofNat 32 imm5.toNat) ∧
    ReadsAndMayWrite (expand (.csrs c rs1)) s 0#5 c (rs1 ≠ 0#5) (fun v => v ||| s.reg rs1) ∧
    ReadsAndMayWrite (expand (.csrc c rs1)) s 0#5 c (rs1 ≠ 0#5) (fun v => v &&& ~~~(s.reg rs1)) ∧
    ReadsAndMayWrite (expand (.csrsi c imm5)) s 0#5 c (imm5 ≠ 0#5)
      (fun v => v ||| BitVec.ofNat 32 imm5.toNat) ∧
    ReadsAndMayWrite (expand (.csrci c imm5)) s 0#5 c (imm5 ≠ 0#5)
      (fun v => v &&& ~~~(BitVec.ofNat 32 imm5.toNat))

/-- RDCYCLE, RDTIME, RDINSTRET and their H forms are CSRRS of their counter with x0, and write its low or high
half (R267, R268, R269). -/
def Obligations.PseudoCounterReads : Prop :=
  ∀ (s : State) (rd : Reg),
    expand (.rdcycle rd) = .csrrs rd 0xC00#12 0#5 ∧ expand (.rdcycleh rd) = .csrrs rd 0xC80#12 0#5 ∧
    expand (.rdtime rd) = .csrrs rd 0xC01#12 0#5 ∧ expand (.rdtimeh rd) = .csrrs rd 0xC81#12 0#5 ∧
    expand (.rdinstret rd) = .csrrs rd 0xC02#12 0#5 ∧ expand (.rdinstreth rd) = .csrrs rd 0xC82#12 0#5 ∧
    (∃ t, exec (expand (.rdcycle rd)) s = .next t ∧
      WroteOnly { s with cycleCtr := t.cycleCtr } t rd (BitVec.ofNat 32 t.cycleCtr.toNat) (s.pc + 4#32)) ∧
    (∃ t, exec (expand (.rdcycleh rd)) s = .next t ∧
      WroteOnly { s with cycleCtr := t.cycleCtr } t rd (BitVec.ofNat 32 (t.cycleCtr.toNat / 2 ^ 32))
        (s.pc + 4#32)) ∧
    (∃ t, exec (expand (.rdtime rd)) s = .next t ∧
      WroteOnly { s with timeCtr := t.timeCtr } t rd (BitVec.ofNat 32 t.timeCtr.toNat) (s.pc + 4#32)) ∧
    (∃ t, exec (expand (.rdtimeh rd)) s = .next t ∧
      WroteOnly { s with timeCtr := t.timeCtr } t rd (BitVec.ofNat 32 (t.timeCtr.toNat / 2 ^ 32))
        (s.pc + 4#32)) ∧
    Writes (expand (.rdinstret rd)) s rd (BitVec.ofNat 32 s.instretCtr.toNat) ∧
    Writes (expand (.rdinstreth rd)) s rd (BitVec.ofNat 32 (s.instretCtr.toNat / 2 ^ 32))
end

