-- ==== Sys2Proof/Laws/State.lean ====
section
/-! SUPPORT. One lemma for each field of State and each named update of it, so that no proof unfolds a
record update. -/

namespace Sys2Proof.Machine

/-! ## setReg -/

@[simp] theorem State.setReg_x (s : State) (i : Reg) (v : Word) : (s.setReg i v).x = if i = 0#5 then s.x else s.x.set (i.toNat - 1) v (place_lt i) := rfl
@[simp] theorem State.setReg_pc (s : State) (i : Reg) (v : Word) : (s.setReg i v).pc = s.pc := rfl
@[simp] theorem State.setReg_cycleCtr (s : State) (i : Reg) (v : Word) : (s.setReg i v).cycleCtr = s.cycleCtr := rfl
@[simp] theorem State.setReg_timeCtr (s : State) (i : Reg) (v : Word) : (s.setReg i v).timeCtr = s.timeCtr := rfl
@[simp] theorem State.setReg_instretCtr (s : State) (i : Reg) (v : Word) : (s.setReg i v).instretCtr = s.instretCtr := rfl
@[simp] theorem State.setReg_unsynced (s : State) (i : Reg) (v : Word) : (s.setReg i v).unsynced = s.unsynced := rfl
@[simp] theorem State.setReg_mem (s : State) (i : Reg) (v : Word) : (s.setReg i v).mem = s.mem := rfl
@[simp] theorem State.setReg_extCsrs (s : State) (i : Reg) (v : Word) : (s.setReg i v).extCsrs = s.extCsrs := rfl
@[simp] theorem State.setReg_platform (s : State) (i : Reg) (v : Word) : (s.setReg i v).platform = s.platform := rfl
@[simp] theorem State.setReg_trap (s : State) (i : Reg) (v : Word) : (s.setReg i v).trap = s.trap := rfl
@[simp] theorem State.setReg_draws (s : State) (i : Reg) (v : Word) : (s.setReg i v).draws = s.draws := rfl

/-! ## storeBytes -/

@[simp] theorem State.storeBytes_x (s : State) (a : Word) (bs : List Byte) : (s.storeBytes a bs).x = s.x := rfl
@[simp] theorem State.storeBytes_pc (s : State) (a : Word) (bs : List Byte) : (s.storeBytes a bs).pc = s.pc := rfl
@[simp] theorem State.storeBytes_cycleCtr (s : State) (a : Word) (bs : List Byte) : (s.storeBytes a bs).cycleCtr = s.cycleCtr := rfl
@[simp] theorem State.storeBytes_timeCtr (s : State) (a : Word) (bs : List Byte) : (s.storeBytes a bs).timeCtr = s.timeCtr := rfl
@[simp] theorem State.storeBytes_instretCtr (s : State) (a : Word) (bs : List Byte) : (s.storeBytes a bs).instretCtr = s.instretCtr := rfl
@[simp] theorem State.storeBytes_unsynced (s : State) (a : Word) (bs : List Byte) : (s.storeBytes a bs).unsynced = Unsynced.mark s.mem s.unsynced a bs.length := rfl
@[simp] theorem State.storeBytes_mem (s : State) (a : Word) (bs : List Byte) : (s.storeBytes a bs).mem = s.mem.putBytes a bs := rfl
@[simp] theorem State.storeBytes_extCsrs (s : State) (a : Word) (bs : List Byte) : (s.storeBytes a bs).extCsrs = s.extCsrs := rfl
@[simp] theorem State.storeBytes_platform (s : State) (a : Word) (bs : List Byte) : (s.storeBytes a bs).platform = s.platform := rfl
@[simp] theorem State.storeBytes_trap (s : State) (a : Word) (bs : List Byte) : (s.storeBytes a bs).trap = s.trap := rfl
@[simp] theorem State.storeBytes_draws (s : State) (a : Word) (bs : List Byte) : (s.storeBytes a bs).draws = s.draws := rfl

/-! ## placeBytes -/

@[simp] theorem State.placeBytes_x (s : State) (a : Word) (bs : List Byte) : (s.placeBytes a bs).x = s.x := rfl
@[simp] theorem State.placeBytes_pc (s : State) (a : Word) (bs : List Byte) : (s.placeBytes a bs).pc = s.pc := rfl
@[simp] theorem State.placeBytes_cycleCtr (s : State) (a : Word) (bs : List Byte) : (s.placeBytes a bs).cycleCtr = s.cycleCtr := rfl
@[simp] theorem State.placeBytes_timeCtr (s : State) (a : Word) (bs : List Byte) : (s.placeBytes a bs).timeCtr = s.timeCtr := rfl
@[simp] theorem State.placeBytes_instretCtr (s : State) (a : Word) (bs : List Byte) : (s.placeBytes a bs).instretCtr = s.instretCtr := rfl
@[simp] theorem State.placeBytes_unsynced (s : State) (a : Word) (bs : List Byte) : (s.placeBytes a bs).unsynced = s.unsynced.unmark a bs.length := rfl
@[simp] theorem State.placeBytes_mem (s : State) (a : Word) (bs : List Byte) : (s.placeBytes a bs).mem = s.mem.putBytes a bs := rfl
@[simp] theorem State.placeBytes_extCsrs (s : State) (a : Word) (bs : List Byte) : (s.placeBytes a bs).extCsrs = s.extCsrs := rfl
@[simp] theorem State.placeBytes_platform (s : State) (a : Word) (bs : List Byte) : (s.placeBytes a bs).platform = s.platform := rfl
@[simp] theorem State.placeBytes_trap (s : State) (a : Word) (bs : List Byte) : (s.placeBytes a bs).trap = s.trap := rfl
@[simp] theorem State.placeBytes_draws (s : State) (a : Word) (bs : List Byte) : (s.placeBytes a bs).draws = s.draws := rfl

/-! ## takeTrap -/

@[simp] theorem State.takeTrap_x (s : State) (c : Cause) (info : Word) : (s.takeTrap c info).x = s.x := rfl
@[simp] theorem State.takeTrap_pc (s : State) (c : Cause) (info : Word) : (s.takeTrap c info).pc = s.pc := rfl
@[simp] theorem State.takeTrap_cycleCtr (s : State) (c : Cause) (info : Word) : (s.takeTrap c info).cycleCtr = s.cycleCtr := rfl
@[simp] theorem State.takeTrap_timeCtr (s : State) (c : Cause) (info : Word) : (s.takeTrap c info).timeCtr = s.timeCtr := rfl
@[simp] theorem State.takeTrap_instretCtr (s : State) (c : Cause) (info : Word) : (s.takeTrap c info).instretCtr = s.instretCtr := rfl
@[simp] theorem State.takeTrap_unsynced (s : State) (c : Cause) (info : Word) : (s.takeTrap c info).unsynced = s.unsynced := rfl
@[simp] theorem State.takeTrap_mem (s : State) (c : Cause) (info : Word) : (s.takeTrap c info).mem = s.mem := rfl
@[simp] theorem State.takeTrap_extCsrs (s : State) (c : Cause) (info : Word) : (s.takeTrap c info).extCsrs = s.extCsrs := rfl
@[simp] theorem State.takeTrap_platform (s : State) (c : Cause) (info : Word) : (s.takeTrap c info).platform = s.platform := rfl
@[simp] theorem State.takeTrap_trap (s : State) (c : Cause) (info : Word) : (s.takeTrap c info).trap = some { cause := c, code := c.code s.platform, epc := s.pc, info := info } := rfl
@[simp] theorem State.takeTrap_draws (s : State) (c : Cause) (info : Word) : (s.takeTrap c info).draws = s.draws + 1 := rfl

/-! ## retire -/

@[simp] theorem State.retire_x (s : State) (next : Word) : (s.retire next).x = s.x := rfl
@[simp] theorem State.retire_pc (s : State) (next : Word) : (s.retire next).pc = next := rfl
@[simp] theorem State.retire_cycleCtr (s : State) (next : Word) : (s.retire next).cycleCtr = s.cycleCtr := rfl
@[simp] theorem State.retire_timeCtr (s : State) (next : Word) : (s.retire next).timeCtr = s.timeCtr := rfl
@[simp] theorem State.retire_instretCtr (s : State) (next : Word) : (s.retire next).instretCtr = s.instretCtr + 1#64 := rfl
@[simp] theorem State.retire_unsynced (s : State) (next : Word) : (s.retire next).unsynced = s.unsynced := rfl
@[simp] theorem State.retire_mem (s : State) (next : Word) : (s.retire next).mem = s.mem := rfl
@[simp] theorem State.retire_extCsrs (s : State) (next : Word) : (s.retire next).extCsrs = s.extCsrs := rfl
@[simp] theorem State.retire_platform (s : State) (next : Word) : (s.retire next).platform = s.platform := rfl
@[simp] theorem State.retire_trap (s : State) (next : Word) : (s.retire next).trap = s.trap := rfl
@[simp] theorem State.retire_draws (s : State) (next : Word) : (s.retire next).draws = s.draws + 1 := rfl

/-! ## sampleCounters -/

@[simp] theorem State.sampleCounters_x (s : State) (c : CsrNum) : (s.sampleCounters c).x = s.x := rfl
@[simp] theorem State.sampleCounters_pc (s : State) (c : CsrNum) : (s.sampleCounters c).pc = s.pc := rfl
@[simp] theorem State.sampleCounters_cycleCtr (s : State) (c : CsrNum) : (s.sampleCounters c).cycleCtr = if c = csrCycle ∨ c = csrCycleh then Config.cycleDraw s.draws s.cycleCtr else s.cycleCtr := rfl
@[simp] theorem State.sampleCounters_timeCtr (s : State) (c : CsrNum) : (s.sampleCounters c).timeCtr = if c = csrTime ∨ c = csrTimeh then Config.timeDraw s.draws s.timeCtr else s.timeCtr := rfl
@[simp] theorem State.sampleCounters_instretCtr (s : State) (c : CsrNum) : (s.sampleCounters c).instretCtr = s.instretCtr := rfl
@[simp] theorem State.sampleCounters_unsynced (s : State) (c : CsrNum) : (s.sampleCounters c).unsynced = s.unsynced := rfl
@[simp] theorem State.sampleCounters_mem (s : State) (c : CsrNum) : (s.sampleCounters c).mem = s.mem := rfl
@[simp] theorem State.sampleCounters_extCsrs (s : State) (c : CsrNum) : (s.sampleCounters c).extCsrs = s.extCsrs := rfl
@[simp] theorem State.sampleCounters_platform (s : State) (c : CsrNum) : (s.sampleCounters c).platform = s.platform := rfl
@[simp] theorem State.sampleCounters_trap (s : State) (c : CsrNum) : (s.sampleCounters c).trap = s.trap := rfl
@[simp] theorem State.sampleCounters_draws (s : State) (c : CsrNum) : (s.sampleCounters c).draws = s.draws := rfl

/-! ## csrWrite -/

@[simp] theorem State.csrWrite_x (s : State) (c : CsrNum) (v : Word) : (s.csrWrite c v).x = s.x := rfl
@[simp] theorem State.csrWrite_pc (s : State) (c : CsrNum) (v : Word) : (s.csrWrite c v).pc = s.pc := rfl
@[simp] theorem State.csrWrite_cycleCtr (s : State) (c : CsrNum) (v : Word) : (s.csrWrite c v).cycleCtr = s.cycleCtr := rfl
@[simp] theorem State.csrWrite_timeCtr (s : State) (c : CsrNum) (v : Word) : (s.csrWrite c v).timeCtr = s.timeCtr := rfl
@[simp] theorem State.csrWrite_instretCtr (s : State) (c : CsrNum) (v : Word) : (s.csrWrite c v).instretCtr = s.instretCtr := rfl
@[simp] theorem State.csrWrite_unsynced (s : State) (c : CsrNum) (v : Word) : (s.csrWrite c v).unsynced = s.unsynced := rfl
@[simp] theorem State.csrWrite_mem (s : State) (c : CsrNum) (v : Word) : (s.csrWrite c v).mem = s.mem := rfl
@[simp] theorem State.csrWrite_extCsrs (s : State) (c : CsrNum) (v : Word) : (s.csrWrite c v).extCsrs = if isCounter c then s.extCsrs else writeCsr s.draws c v s.extCsrs := rfl
@[simp] theorem State.csrWrite_platform (s : State) (c : CsrNum) (v : Word) : (s.csrWrite c v).platform = s.platform := rfl
@[simp] theorem State.csrWrite_trap (s : State) (c : CsrNum) (v : Word) : (s.csrWrite c v).trap = s.trap := rfl
@[simp] theorem State.csrWrite_draws (s : State) (c : CsrNum) (v : Word) : (s.csrWrite c v).draws = s.draws := rfl

/-! ## csrReadEffect -/

@[simp] theorem State.csrReadEffect_x (s : State) (c : CsrNum) : (s.csrReadEffect c).x = s.x := rfl
@[simp] theorem State.csrReadEffect_pc (s : State) (c : CsrNum) : (s.csrReadEffect c).pc = s.pc := rfl
@[simp] theorem State.csrReadEffect_cycleCtr (s : State) (c : CsrNum) : (s.csrReadEffect c).cycleCtr = s.cycleCtr := rfl
@[simp] theorem State.csrReadEffect_timeCtr (s : State) (c : CsrNum) : (s.csrReadEffect c).timeCtr = s.timeCtr := rfl
@[simp] theorem State.csrReadEffect_instretCtr (s : State) (c : CsrNum) : (s.csrReadEffect c).instretCtr = s.instretCtr := rfl
@[simp] theorem State.csrReadEffect_unsynced (s : State) (c : CsrNum) : (s.csrReadEffect c).unsynced = s.unsynced := rfl
@[simp] theorem State.csrReadEffect_mem (s : State) (c : CsrNum) : (s.csrReadEffect c).mem = s.mem := rfl
@[simp] theorem State.csrReadEffect_extCsrs (s : State) (c : CsrNum) : (s.csrReadEffect c).extCsrs = if isCounter c then s.extCsrs else readCsr s.draws c s.extCsrs := rfl
@[simp] theorem State.csrReadEffect_platform (s : State) (c : CsrNum) : (s.csrReadEffect c).platform = s.platform := rfl
@[simp] theorem State.csrReadEffect_trap (s : State) (c : CsrNum) : (s.csrReadEffect c).trap = s.trap := rfl
@[simp] theorem State.csrReadEffect_draws (s : State) (c : CsrNum) : (s.csrReadEffect c).draws = s.draws := rfl

/-! ## csrReadTo -/

@[simp] theorem State.csrReadTo_pc (s : State) (rd : Reg) (c : CsrNum) : (s.csrReadTo rd c).pc = s.pc := rfl
@[simp] theorem State.csrReadTo_cycleCtr (s : State) (rd : Reg) (c : CsrNum) : (s.csrReadTo rd c).cycleCtr = (s.sampleCounters c).cycleCtr := rfl
@[simp] theorem State.csrReadTo_timeCtr (s : State) (rd : Reg) (c : CsrNum) : (s.csrReadTo rd c).timeCtr = (s.sampleCounters c).timeCtr := rfl
@[simp] theorem State.csrReadTo_instretCtr (s : State) (rd : Reg) (c : CsrNum) : (s.csrReadTo rd c).instretCtr = s.instretCtr := rfl
@[simp] theorem State.csrReadTo_unsynced (s : State) (rd : Reg) (c : CsrNum) : (s.csrReadTo rd c).unsynced = s.unsynced := rfl
@[simp] theorem State.csrReadTo_mem (s : State) (rd : Reg) (c : CsrNum) : (s.csrReadTo rd c).mem = s.mem := rfl
@[simp] theorem State.csrReadTo_extCsrs (s : State) (rd : Reg) (c : CsrNum) : (s.csrReadTo rd c).extCsrs = (s.csrReadEffect c).extCsrs := rfl
@[simp] theorem State.csrReadTo_platform (s : State) (rd : Reg) (c : CsrNum) : (s.csrReadTo rd c).platform = s.platform := rfl
@[simp] theorem State.csrReadTo_trap (s : State) (rd : Reg) (c : CsrNum) : (s.csrReadTo rd c).trap = s.trap := rfl
@[simp] theorem State.csrReadTo_draws (s : State) (rd : Reg) (c : CsrNum) : (s.csrReadTo rd c).draws = s.draws := rfl

/-! ## syncFetch -/

@[simp] theorem State.syncFetch_x (s : State) : (s.syncFetch).x = s.x := rfl
@[simp] theorem State.syncFetch_pc (s : State) : (s.syncFetch).pc = s.pc := rfl
@[simp] theorem State.syncFetch_cycleCtr (s : State) : (s.syncFetch).cycleCtr = s.cycleCtr := rfl
@[simp] theorem State.syncFetch_timeCtr (s : State) : (s.syncFetch).timeCtr = s.timeCtr := rfl
@[simp] theorem State.syncFetch_instretCtr (s : State) : (s.syncFetch).instretCtr = s.instretCtr := rfl
@[simp] theorem State.syncFetch_unsynced (s : State) : (s.syncFetch).unsynced = [] := rfl
@[simp] theorem State.syncFetch_mem (s : State) : (s.syncFetch).mem = s.mem := rfl
@[simp] theorem State.syncFetch_extCsrs (s : State) : (s.syncFetch).extCsrs = s.extCsrs := rfl
@[simp] theorem State.syncFetch_platform (s : State) : (s.syncFetch).platform = s.platform := rfl
@[simp] theorem State.syncFetch_trap (s : State) : (s.syncFetch).trap = s.trap := rfl
@[simp] theorem State.syncFetch_draws (s : State) : (s.syncFetch).draws = s.draws := rfl

/-! ## withFetchWord -/

@[simp] theorem State.withFetchWord_x (s : State) (nbits w : Nat) : (s.withFetchWord nbits w).x = s.x := rfl
@[simp] theorem State.withFetchWord_pc (s : State) (nbits w : Nat) : (s.withFetchWord nbits w).pc = s.pc := rfl
@[simp] theorem State.withFetchWord_cycleCtr (s : State) (nbits w : Nat) : (s.withFetchWord nbits w).cycleCtr = s.cycleCtr := rfl
@[simp] theorem State.withFetchWord_timeCtr (s : State) (nbits w : Nat) : (s.withFetchWord nbits w).timeCtr = s.timeCtr := rfl
@[simp] theorem State.withFetchWord_instretCtr (s : State) (nbits w : Nat) : (s.withFetchWord nbits w).instretCtr = s.instretCtr := rfl
@[simp] theorem State.withFetchWord_unsynced (s : State) (nbits w : Nat) : (s.withFetchWord nbits w).unsynced = s.unsynced.unmark s.pc 4 := rfl
@[simp] theorem State.withFetchWord_mem (s : State) (nbits w : Nat) : (s.withFetchWord nbits w).mem = s.mem.putBytes s.pc (leBytes (BitVec.ofNat 32 (w % 2 ^ nbits)) 4) := rfl
@[simp] theorem State.withFetchWord_extCsrs (s : State) (nbits w : Nat) : (s.withFetchWord nbits w).extCsrs = s.extCsrs := rfl
@[simp] theorem State.withFetchWord_platform (s : State) (nbits w : Nat) : (s.withFetchWord nbits w).platform = s.platform := rfl
@[simp] theorem State.withFetchWord_trap (s : State) (nbits w : Nat) : (s.withFetchWord nbits w).trap = none := rfl
@[simp] theorem State.withFetchWord_draws (s : State) (nbits w : Nat) : (s.withFetchWord nbits w).draws = s.draws := rfl

end Sys2Proof.Machine
end

