-- ==== Sys2Proof/Laws/Memory.lean ====
section
/-! SUPPORT. Data kept by address: what is found after an update, and that every memory operation keeps the
canonical form. -/

namespace Sys2Proof.Machine

variable {α : Type}

/-! ## Reading after an update -/

theorem findAt_putAt (a b : Nat) (v : α) (l : List (Nat × α)) :
    findAt a (putAt b v l) = if a = b then some v else findAt a l := by
  induction l with
  | nil => simp [putAt, findAt]
  | cons c r ih =>
    obtain ⟨d, w⟩ := c
    simp only [putAt]
    split
    · simp [findAt]
    · split
      · next h => subst h; by_cases h : a = b <;> simp [findAt, h]
      · next h =>
        simp only [findAt, ih]
        by_cases had : a = d
        · simp [had, show ¬ d = b from fun e => h e.symm]
        · simp [had]

theorem findAt_dropAt (a b : Nat) (l : List (Nat × α)) :
    findAt a (dropAt b l) = if a = b then none else findAt a l := by
  induction l with
  | nil => simp [dropAt, findAt]
  | cons c r ih =>
    obtain ⟨d, w⟩ := c
    simp only [dropAt]
    split
    · next h =>
      subst h
      rw [ih]
      by_cases hab : a = b <;> simp [findAt, hab]
    · next h =>
      simp only [findAt, ih]
      by_cases had : a = d
      · simp [had, show ¬ d = b from fun e => h e.symm]
      · simp [had]

/-! ## The canonical form -/

theorem mem_putAt {a : Nat} {v : α} {l : List (Nat × α)} {c : Nat × α} (h : c ∈ putAt a v l) :
    c = (a, v) ∨ c ∈ l := by
  induction l with
  | nil => simpa [putAt] using h
  | cons d r ih =>
    obtain ⟨b, w⟩ := d
    simp only [putAt] at h
    split at h
    · simpa using h
    · split at h
      · rcases List.mem_cons.1 h with h | h
        · exact .inl h
        · exact .inr (List.mem_cons_of_mem _ h)
      · rcases List.mem_cons.1 h with h | h
        · exact .inr (by simp [h])
        · exact (ih h).imp_right (List.mem_cons_of_mem _)

theorem mem_dropAt {a : Nat} {l : List (Nat × α)} {c : Nat × α} (h : c ∈ dropAt a l) : c ∈ l := by
  induction l with
  | nil => simp [dropAt] at h
  | cons d r ih =>
    obtain ⟨b, w⟩ := d
    simp only [dropAt] at h
    split at h
    · exact List.mem_cons_of_mem _ (ih h)
    · rcases List.mem_cons.1 h with h | h
      · simp [h]
      · exact List.mem_cons_of_mem _ (ih h)

theorem putAt_rising {a : Nat} {v : α} {l : List (Nat × α)} (h : Rising l) : Rising (putAt a v l) := by
  induction l with
  | nil => simp [putAt, Rising]
  | cons d r ih =>
    obtain ⟨b, w⟩ := d
    obtain ⟨hb, hr⟩ := List.pairwise_cons.1 h
    simp only [putAt]
    split
    · next hab =>
      refine List.pairwise_cons.2 ⟨fun c hc => ?_, h⟩
      rcases List.mem_cons.1 hc with rfl | hc
      · exact hab
      · exact Nat.lt_trans hab (hb c hc)
    · split
      · next hab => subst hab; exact List.pairwise_cons.2 ⟨hb, hr⟩
      · next h1 h2 =>
        refine List.pairwise_cons.2 ⟨fun c hc => ?_, ih hr⟩
        rcases mem_putAt hc with rfl | hc
        · show b < a; omega
        · exact hb c hc

theorem dropAt_rising {a : Nat} {l : List (Nat × α)} (h : Rising l) : Rising (dropAt a l) := by
  induction l with
  | nil => simp [dropAt, Rising]
  | cons d r ih =>
    obtain ⟨b, w⟩ := d
    obtain ⟨hb, hr⟩ := List.pairwise_cons.1 h
    simp only [dropAt]
    split
    · exact ih hr
    · exact List.pairwise_cons.2 ⟨fun c hc => hb c (mem_dropAt hc), ih hr⟩

theorem putAt_inSpace {a : Nat} {v : α} {l : List (Nat × α)} (ha : a < 2 ^ 32) (h : InSpace l) :
    InSpace (putAt a v l) := fun c hc => by
  rcases mem_putAt hc with rfl | hc
  · exact ha
  · exact h c hc

theorem dropAt_inSpace {a : Nat} {l : List (Nat × α)} (h : InSpace l) : InSpace (dropAt a l) :=
  fun c hc => h c (mem_dropAt hc)

/-- Writing bytes keeps memory's canonical form. -/
theorem Memory.putBytes_wf {m : Memory} (a : Word) (bs : List Byte) (h : m.wf) : (m.putBytes a bs).wf := by
  induction bs generalizing m a with
  | nil => exact h
  | cons b bs ih => exact ih (a + 1#32) ⟨putAt_rising h.1, putAt_inSpace a.isLt h.2⟩

/-- Marking stored bytes keeps the unsynced set's canonical form. -/
theorem Unsynced.mark_wf (m : Memory) {u : Unsynced} (a : Word) (n : Nat) (h : u.wf) :
    (Unsynced.mark m u a n).wf := by
  induction n generalizing u a with
  | zero => exact h
  | succ n ih =>
    apply ih
    split
    · exact h
    · exact ⟨putAt_rising h.1, putAt_inSpace a.isLt h.2⟩

/-- Unmarking placed bytes keeps the unsynced set's canonical form. -/
theorem Unsynced.unmark_wf {u : Unsynced} (a : Word) (n : Nat) (h : u.wf) : (u.unmark a n).wf := by
  induction n generalizing u a with
  | zero => exact h
  | succ n ih => exact ih (a + 1#32) ⟨dropAt_rising h.1, dropAt_inSpace h.2⟩

theorem reset_mem_wf : State.reset.mem.wf := by decide

theorem State.storeBytes_wf {s : State} (a : Word) (bs : List Byte) (hm : s.mem.wf) (hu : s.unsynced.wf) :
    (s.storeBytes a bs).mem.wf ∧ (s.storeBytes a bs).unsynced.wf :=
  ⟨Memory.putBytes_wf a bs hm, Unsynced.mark_wf s.mem a bs.length hu⟩

theorem State.placeBytes_wf {s : State} (a : Word) (bs : List Byte) (hm : s.mem.wf) (hu : s.unsynced.wf) :
    (s.placeBytes a bs).mem.wf ∧ (s.placeBytes a bs).unsynced.wf :=
  ⟨Memory.putBytes_wf a bs hm, Unsynced.unmark_wf a bs.length hu⟩

/-! ## Bytes -/

/-- Bytes are read from the field `mem` alone. -/
theorem State.byteAt_of_mem {s t : State} (h : t.mem = s.mem) (a : Word) : t.byteAt a = s.byteAt a := by
  unfold State.byteAt; rw [h]

/-- A byte outside the addresses written is found as before. -/
theorem findAt_putBytes_outside (m : Memory) (a : Word) (bs : List Byte) (b : Nat)
    (h : b ∉ spanOf a bs.length) : findAt b (m.putBytes a bs) = findAt b m := by
  induction bs generalizing m a with
  | nil => rfl
  | cons v bs ih =>
    simp only [List.length_cons, spanOf, List.mem_cons, not_or] at h
    rw [Memory.putBytes, ih _ _ h.2, findAt_putAt, if_neg h.1]

/-- A store leaves every byte outside its own alone. -/
theorem State.byteAt_storeBytes_outside (s : State) (a b : Word) (bs : List Byte)
    (h : b.toNat ∉ spanOf a bs.length) : (s.storeBytes a bs).byteAt b = s.byteAt b := by
  simp [State.byteAt, findAt_putBytes_outside _ _ _ _ h]

@[simp] theorem State.byteAt_setReg (s : State) (i : Reg) (v a : Word) : (s.setReg i v).byteAt a = s.byteAt a := rfl
@[simp] theorem State.byteAt_takeTrap (s : State) (c : Cause) (info a : Word) :
    (s.takeTrap c info).byteAt a = s.byteAt a := rfl
@[simp] theorem State.byteAt_retire (s : State) (next a : Word) : (s.retire next).byteAt a = s.byteAt a := rfl
@[simp] theorem State.byteAt_sampleCounters (s : State) (c : CsrNum) (a : Word) :
    (s.sampleCounters c).byteAt a = s.byteAt a := rfl
@[simp] theorem State.byteAt_csrReadEffect (s : State) (c : CsrNum) (a : Word) :
    (s.csrReadEffect c).byteAt a = s.byteAt a := rfl
@[simp] theorem State.byteAt_csrWrite (s : State) (c : CsrNum) (v a : Word) :
    (s.csrWrite c v).byteAt a = s.byteAt a := rfl
@[simp] theorem State.byteAt_syncFetch (s : State) (a : Word) : s.syncFetch.byteAt a = s.byteAt a := rfl

@[simp] theorem leBytes_length (v : Word) (n : Nat) : (leBytes v n).length = n := by
  induction n generalizing v with
  | zero => rfl
  | succ n ih => simp [leBytes, ih]

end Sys2Proof.Machine
end

