-- ==== Sys2Proof/Laws/Registers.lean ====
section
/-! SUPPORT. Reading a register after each named update (spec/10_state.md R20, R21). -/

namespace Sys2Proof.Machine

/-- `x0` reads 0 in every state (R21). -/
@[simp] theorem State.reg_zero (s : State) : s.reg 0#5 = 0#32 := by simp [State.reg]

theorem place_inj {i j : Reg} (hi : i ≠ 0#5) (hj : j ≠ 0#5) (h : i.toNat - 1 = j.toNat - 1) : i = j := by
  have hi' : i.toNat ≠ 0 := fun e => hi (BitVec.eq_of_toNat_eq (by simpa using e))
  have hj' : j.toNat ≠ 0 := fun e => hj (BitVec.eq_of_toNat_eq (by simpa using e))
  exact BitVec.eq_of_toNat_eq (by omega)

/-- Everything a register write does: the named register, if it is not `x0`, holds the value, and every
other reads as before. -/
theorem State.reg_setReg (s : State) (i j : Reg) (v : Word) :
    (s.setReg i v).reg j = if j = i ∧ j ≠ 0#5 then v else s.reg j := by
  unfold State.reg State.setReg
  by_cases hj : j = 0#5
  · simp [hj]
  by_cases hi : i = 0#5
  · simp [hi, hj]
  by_cases h : j = i
  · subst h; simp [hj]
  · have hne : i.toNat - 1 ≠ j.toNat - 1 := fun e => h (place_inj hj hi e.symm)
    simp [hi, hj, h, hne]

@[simp] theorem State.reg_setReg_same (s : State) {i : Reg} (v : Word) (h : i ≠ 0#5) :
    (s.setReg i v).reg i = v := by simp [State.reg_setReg, h]

theorem State.reg_setReg_other (s : State) {i j : Reg} (v : Word) (h : j ≠ i) :
    (s.setReg i v).reg j = s.reg j := by simp [State.reg_setReg, h]

/-- Registers are read from the field `x` alone. -/
theorem State.reg_of_x {s t : State} (h : t.x = s.x) (i : Reg) : t.reg i = s.reg i := by
  unfold State.reg; simp [h]

@[simp] theorem State.reg_storeBytes (s : State) (a : Word) (bs : List Byte) (i : Reg) :
    (s.storeBytes a bs).reg i = s.reg i := rfl
@[simp] theorem State.reg_placeBytes (s : State) (a : Word) (bs : List Byte) (i : Reg) :
    (s.placeBytes a bs).reg i = s.reg i := rfl
@[simp] theorem State.reg_takeTrap (s : State) (c : Cause) (info : Word) (i : Reg) :
    (s.takeTrap c info).reg i = s.reg i := rfl
@[simp] theorem State.reg_retire (s : State) (next : Word) (i : Reg) : (s.retire next).reg i = s.reg i := rfl
@[simp] theorem State.reg_sampleCounters (s : State) (c : CsrNum) (i : Reg) :
    (s.sampleCounters c).reg i = s.reg i := rfl
@[simp] theorem State.reg_csrReadEffect (s : State) (c : CsrNum) (i : Reg) :
    (s.csrReadEffect c).reg i = s.reg i := rfl
@[simp] theorem State.reg_csrWrite (s : State) (c : CsrNum) (v : Word) (i : Reg) :
    (s.csrWrite c v).reg i = s.reg i := rfl
@[simp] theorem State.reg_syncFetch (s : State) (i : Reg) : s.syncFetch.reg i = s.reg i := rfl
@[simp] theorem State.reg_withFetchWord (s : State) (nbits w : Nat) (i : Reg) :
    (s.withFetchWord nbits w).reg i = s.reg i := rfl

end Sys2Proof.Machine
end

