-- ==== Sys2Proof/Laws/Ops.lean ====
section
/-! SUPPORT. For each shared operation, one lemma that says all it can do. The provers cite these and
unfold none of the operations. -/

namespace Sys2Proof.Machine

variable {s t : State}

theorem State.raise_next {c : Cause} {info : Word} (h : s.raise c info = .next t) : t = s.takeTrap c info := by
  simpa [State.raise] using h.symm

theorem State.finish_next (h : s.finish = .next t) : t = s.retire (s.pc + 4#32) := by
  simpa [State.finish] using h.symm

theorem State.writeResult_next {rd : Reg} {v : Word} (h : s.writeResult rd v = .next t) :
    t = (s.setReg rd v).retire (s.pc + 4#32) := State.finish_next h

theorem State.goTo_next {target : Word} (h : s.goTo target = .next t) :
    (aligned4 target = true ∧ t = s.retire target) ∨
    (aligned4 target = false ∧ t = s.takeTrap .instructionAddressMisaligned target) := by
  unfold State.goTo at h
  split at h
  · next ha => exact .inl ⟨ha, by simpa using h.symm⟩
  · next ha => exact .inr ⟨by simpa using ha, State.raise_next h⟩

theorem State.goToLinking_next {rd : Reg} {target : Word} (h : s.goToLinking rd target = .next t) :
    (aligned4 target = true ∧ t = (s.setReg rd (s.pc + 4#32)).retire target) ∨
    (aligned4 target = false ∧ t = s.takeTrap .instructionAddressMisaligned target) := by
  unfold State.goToLinking at h
  split at h
  · next ha => exact .inl ⟨ha, by simpa using h.symm⟩
  · next ha => exact .inr ⟨by simpa using ha, State.raise_next h⟩

theorem State.branchIf_next {taken : Bool} {imm13 : BitVec 13} (h : s.branchIf taken imm13 = .next t) :
    (taken = false ∧ t = s.retire (s.pc + 4#32)) ∨
    (taken = true ∧ aligned4 (s.pc + sext13 imm13) = true ∧ t = s.retire (s.pc + sext13 imm13)) ∨
    (taken = true ∧ aligned4 (s.pc + sext13 imm13) = false ∧
      t = s.takeTrap .instructionAddressMisaligned (s.pc + sext13 imm13)) := by
  unfold State.branchIf at h
  split at h
  · next ht =>
    rcases State.goTo_next h with ⟨ha, rfl⟩ | ⟨ha, rfl⟩
    · exact .inr (.inl ⟨ht, ha, rfl⟩)
    · exact .inr (.inr ⟨ht, ha, rfl⟩)
  · next ht => exact .inl ⟨by simpa using ht, State.finish_next h⟩

theorem State.loadTo_next {rd : Reg} {a : Word} {n : Nat} {v : Word} (h : s.loadTo rd a n v = .next t) :
    (s.accessCause .load .loadAddressMisaligned .loadAccessFault a n = none ∧
      t = (s.setReg rd v).retire (s.pc + 4#32)) ∨
    ∃ c, s.accessCause .load .loadAddressMisaligned .loadAccessFault a n = some c ∧ t = s.takeTrap c a := by
  unfold State.loadTo at h
  split at h
  · next c hc => exact .inr ⟨c, hc, State.raise_next h⟩
  · next hc => exact .inl ⟨hc, State.writeResult_next h⟩

theorem State.storeFrom_next {a : Word} {n : Nat} {v : Word} (h : s.storeFrom a n v = .next t) :
    (s.accessCause .store .storeAddressMisaligned .storeAccessFault a n = none ∧
      t = (s.storeBytes a (leBytes v n)).retire (s.pc + 4#32)) ∨
    ∃ c, s.accessCause .store .storeAddressMisaligned .storeAccessFault a n = some c ∧ t = s.takeTrap c a := by
  unfold State.storeFrom at h
  split at h
  · next c hc => exact .inr ⟨c, hc, State.raise_next h⟩
  · next hc => exact .inl ⟨hc, State.finish_next h⟩

/-- When a data access raises, and with what. -/
theorem State.accessCause_cases (s : State) (kind : AccessKind) (m f : Cause) (a : Word) (n : Nat) :
    (s.accessCause kind m f a n = some m ∧ misaligned a n = true ∧ s.misalignedRaises = true) ∨
    ((misaligned a n && s.misalignedRaises) = false ∧ s.validSpan kind a n = true ∧
      s.accessCause kind m f a n = none) ∨
    ((misaligned a n && s.misalignedRaises) = false ∧ s.validSpan kind a n = false ∧
      s.accessCause kind m f a n = some f) := by
  unfold State.accessCause
  split
  · next h => exact .inl ⟨rfl, by simpa using h⟩
  · next h =>
    split
    · next hv => exact .inr (.inl ⟨by simpa using h, hv, rfl⟩)
    · next hv => exact .inr (.inr ⟨by simpa using h, by simpa using hv, rfl⟩)

theorem State.csrAccess_next {inst : Word} {rd : Reg} {c : CsrNum} {reads writes : Bool} {new : Word → Word}
    (h : s.csrAccess inst rd c reads writes new = .next t) :
    (s.csrAllowed c writes = false ∧ t = s.takeTrap .illegalInstruction inst) ∨
    (s.csrAllowed c writes = true ∧
      t = (if writes then
            (if reads then s.csrReadTo rd c else s).csrWrite c (new (((s.sampleCounters c).csrValue c).getD 0#32))
          else if reads then s.csrReadTo rd c else s).retire (s.pc + 4#32)) := by
  unfold State.csrAccess at h
  split at h
  · next ha =>
    refine .inr ⟨ha, ?_⟩
    cases writes <;> cases reads <;> exact State.finish_next h
  · next ha => exact .inl ⟨by simpa using ha, State.raise_next h⟩

/-- A fetch gives a word only at a multiple of 4 whose four bytes exist. -/
theorem State.fetch_ok {w : Word} (h : s.fetch = .ok w) :
    aligned4 s.pc = true ∧ s.validSpan .fetch s.pc 4 = true ∧ w = s.fetchWordAt s.pc := by
  unfold State.fetch at h
  split at h
  · cases h
  · next ha =>
    split at h
    · cases h
    · next hv => exact ⟨by simpa using ha, by simpa using hv, by simpa using h.symm⟩

theorem State.fetch_error {c : Cause} (h : s.fetch = .error c) :
    (aligned4 s.pc = false ∧ c = .instructionAddressMisaligned) ∨
    (aligned4 s.pc = true ∧ s.validSpan .fetch s.pc 4 = false ∧ c = .instructionAccessFault) := by
  unfold State.fetch at h
  split at h
  · next ha => exact .inl ⟨by simpa using ha, by simpa using h.symm⟩
  · next ha =>
    split at h
    · next hv => exact .inr ⟨by simpa using ha, by simpa using hv, by simpa using h.symm⟩
    · cases h

/-- A byte that is not unsynced is fetched as memory holds it (spec/48_fence.md R245). -/
theorem State.fetchByte_synced {a : Word} (h : findAt a.toNat s.unsynced = none) :
    s.fetchByte a = s.byteAt a := by simp [State.fetchByte, h]

/-- All a step can do: stop at a hart that has trapped, trap at the fetch or at decode, or execute the
instruction at `pc` (spec/10_state.md R25). -/
theorem step_next (h : step s = .next t) :
    s.trap = none ∧
    ((∃ c, s.fetch = .error c ∧ t = s.takeTrap c s.pc) ∨
     (∃ w e, s.fetch = .ok w ∧ decode w = .error e ∧ t = s.takeTrap .illegalInstruction w) ∨
     (∃ w i, s.fetch = .ok w ∧ decode w = .ok i ∧ exec i s = .next t)) := by
  unfold step at h
  split at h
  · cases h
  · next hn =>
    refine ⟨hn, ?_⟩
    split at h
    · next c hc => exact .inl ⟨c, hc, State.raise_next h⟩
    · next w hw =>
      split at h
      · next e he => exact .inr (.inl ⟨w, e, hw, he, State.raise_next h⟩)
      · next i hi => exact .inr (.inr ⟨w, i, hw, hi, h⟩)

end Sys2Proof.Machine
end

