-- ==== Sys2Proof/Laws/Csr.lean ====
section
/-! SUPPORT. The CSRs of the platform: what is found at a number after each update of them, and all that a CSR
instruction can do to them. -/

namespace Sys2Proof.Machine

variable {l : List (CsrNum × CsrCell)}

theorem findCsr_putCsr (c d : CsrNum) (v : Word) (l : List (CsrNum × CsrCell)) :
    findCsr d (putCsr c v l) =
      (findCsr d l).map (fun cell => if d = c then { cell with value := v } else cell) := by
  induction l with
  | nil => rfl
  | cons p r ih =>
    obtain ⟨e, cell⟩ := p
    by_cases hc : c = e
    · subst hc
      by_cases hd : d = c <;> simp [putCsr, findCsr, hd]
    · by_cases hd : d = e
      · subst hd; simp [putCsr, findCsr, hc, Ne.symm hc]
      · simp [putCsr, findCsr, hc, hd, ih]

theorem findCsr_touchCsrs (f : CsrNum → Word → Word) (d : CsrNum) (l : List (CsrNum × CsrCell)) :
    findCsr d (touchCsrs f l) =
      (findCsr d l).map (fun cell =>
        { cell with value := if cell.behaviour = .custom then f d cell.value else cell.value }) := by
  induction l with
  | nil => rfl
  | cons p r ih =>
    obtain ⟨e, cell⟩ := p
    by_cases hd : d = e
    · subst hd; simp [touchCsrs, findCsr]
    · simp [touchCsrs, findCsr, hd, ih]

/-- All that a read of a CSR of the platform does to the CSRs of the platform. -/
theorem findCsr_readCsr {n : Nat} {c : CsrNum} {cell : CsrCell} (h : findCsr c l = some cell) (d : CsrNum) :
    findCsr d (readCsr n c l) = (findCsr d l).map (afterRead n c cell.behaviour d) := by
  obtain ⟨w, b, u⟩ := cell
  cases b with
  | storage =>
    have hid : afterRead n c .storage d = id := by funext e; simp [afterRead]
    simp [readCsr, h, hid]
  | custom =>
    simp only [readCsr, h, findCsr_touchCsrs]
    congr 1
    funext e
    by_cases he : e.behaviour = .custom <;> simp [afterRead, he]

/-- All that a write to a CSR of the platform does to the CSRs of the platform. -/
theorem findCsr_writeCsr {n : Nat} {c : CsrNum} {v : Word} {cell : CsrCell} (h : findCsr c l = some cell)
    (d : CsrNum) :
    findCsr d (writeCsr n c v l) = (findCsr d l).map (afterWrite n c cell.behaviour v d) := by
  obtain ⟨w, b, u⟩ := cell
  cases b with
  | storage =>
    simp only [writeCsr, h, findCsr_putCsr]
    congr 1
  | custom =>
    simp only [writeCsr, h, findCsr_putCsr, findCsr_touchCsrs, Option.map_map]
    by_cases hd : d = c
    · subst hd; simp [h, afterWrite]
    · congr 1
      funext e
      by_cases he : e.behaviour = .custom <;> simp [afterWrite, hd, he]

/-- An update leaves every CSR's right and behaviour alone, and what a storage CSR that may not be written holds. -/
def RightsKept (l l' : List (CsrNum × CsrCell)) : Prop :=
  ∀ d : CsrNum,
    (findCsr d l').map (fun cell => (cell.writable, cell.behaviour)) =
      (findCsr d l).map (fun cell => (cell.writable, cell.behaviour)) ∧
    ∀ v, findCsr d l = some { writable := false, behaviour := .storage, value := v } → findCsr d l' = findCsr d l

theorem RightsKept.refl (l : List (CsrNum × CsrCell)) : RightsKept l l := fun _ => ⟨rfl, fun _ _ => rfl⟩

theorem RightsKept.trans {l l' l'' : List (CsrNum × CsrCell)} (h : RightsKept l l') (h' : RightsKept l' l'') :
    RightsKept l l'' := fun d =>
  ⟨(h' d).1.trans (h d).1, fun v hv => ((h' d).2 v (((h d).2 v hv).trans hv)).trans ((h d).2 v hv)⟩

theorem readCsr_rightsKept (n : Nat) (c : CsrNum) (l : List (CsrNum × CsrCell)) : RightsKept l (readCsr n c l) := by
  cases h : findCsr c l with
  | none => unfold readCsr; rw [h]; exact RightsKept.refl l
  | some cell =>
    intro d
    rw [findCsr_readCsr h]
    refine ⟨?_, fun v hv => by simp [hv, afterRead]⟩
    rw [Option.map_map]
    congr 1
    funext e
    simp only [Function.comp_apply, afterRead]
    split <;> rfl

theorem writeCsr_rightsKept (n : Nat) {c : CsrNum} (v : Word) {cell : CsrCell} (h : findCsr c l = some cell)
    (hw : cell.writable = true) : RightsKept l (writeCsr n c v l) := by
  intro d
  rw [findCsr_writeCsr h]
  constructor
  · rw [Option.map_map]
    congr 1
    funext e
    simp only [Function.comp_apply, afterWrite]
    split
    · rfl
    · split <;> rfl
  · intro u hu
    have hd : d ≠ c := by
      rintro rfl
      rw [h] at hu
      simp only [Option.some.injEq] at hu
      rw [hu] at hw
      cases hw
    simp [hu, afterWrite, hd]

end Sys2Proof.Machine
end

