-- ==== Sys2Proof/Laws/PerInstr.lean ====
section
/-! SUPPORT. The family EncodedOpcode: the low seven bits of every instruction's word are the opcode value
spec/30_encoding.md R92 gives it. -/

namespace Sys2Proof

/-- The major opcode value of spec/30_encoding.md R92. -/
def opcodeOf : Instr → BitVec 7
  | .addi _ _ _ | .slti _ _ _ | .sltiu _ _ _ | .xori _ _ _ | .ori _ _ _ | .andi _ _ _ => 0x13#7
  | .slli _ _ _ | .srli _ _ _ | .srai _ _ _ => 0x13#7
  | .jalr _ _ _ => 0x67#7
  | .lw _ _ _ | .lh _ _ _ | .lhu _ _ _ | .lb _ _ _ | .lbu _ _ _ => 0x03#7
  | .csrrw _ _ _ | .csrrs _ _ _ | .csrrc _ _ _ | .csrrwi _ _ _ | .csrrsi _ _ _ | .csrrci _ _ _ => 0x73#7
  | .ecall | .ebreak => 0x73#7
  | .lui _ _ => 0x37#7
  | .auipc _ _ => 0x17#7
  | .add _ _ _ | .sub _ _ _ | .slt _ _ _ | .sltu _ _ _ | .and _ _ _ | .or _ _ _ | .xor _ _ _ => 0x33#7
  | .sll _ _ _ | .srl _ _ _ | .sra _ _ _ => 0x33#7
  | .jal _ _ => 0x6F#7
  | .beq _ _ _ | .bne _ _ _ | .blt _ _ _ | .bltu _ _ _ | .bge _ _ _ | .bgeu _ _ _ => 0x63#7
  | .sw _ _ _ | .sh _ _ _ | .sb _ _ _ => 0x23#7
  | .fence _ _ | .fenceI => 0x0F#7

def Laws.EncodedOpcode.Statement (i : Instr) : Prop := (encode i).extractLsb' 0 7 = opcodeOf i

/-- The low part of a word whose last seven bits are `op`. -/
theorem extract_opcode {n : Nat} (x : BitVec n) (op : BitVec 7) : (x ++ op).extractLsb' 0 7 = op := by
  ext i hi
  simp [BitVec.getLsbD_append, hi]

@[simp] theorem encI_opcode (a b f d op) : (encI a b f d op).extractLsb' 0 7 = op := extract_opcode _ op
@[simp] theorem encR_opcode (a b c f d op) : (encR a b c f d op).extractLsb' 0 7 = op := extract_opcode _ op
@[simp] theorem encU_opcode (a d op) : (encU a d op).extractLsb' 0 7 = op := extract_opcode _ op
@[simp] theorem encJ_opcode (a d op) : (encJ a d op).extractLsb' 0 7 = op := extract_opcode _ op
@[simp] theorem encB_opcode (a b c f op) : (encB a b c f op).extractLsb' 0 7 = op := extract_opcode _ op
@[simp] theorem encS_opcode (a b c f op) : (encS a b c f op).extractLsb' 0 7 = op := extract_opcode _ op

theorem Laws.EncodedOpcode.addi (rd rs1 : Reg) (imm12 : BitVec 12) : Laws.EncodedOpcode.Statement (.addi rd rs1 imm12) := by
  exact encI_opcode _ _ _ _ _

theorem Laws.EncodedOpcode.slti (rd rs1 : Reg) (imm12 : BitVec 12) : Laws.EncodedOpcode.Statement (.slti rd rs1 imm12) := by
  exact encI_opcode _ _ _ _ _

theorem Laws.EncodedOpcode.sltiu (rd rs1 : Reg) (imm12 : BitVec 12) : Laws.EncodedOpcode.Statement (.sltiu rd rs1 imm12) := by
  exact encI_opcode _ _ _ _ _

theorem Laws.EncodedOpcode.xori (rd rs1 : Reg) (imm12 : BitVec 12) : Laws.EncodedOpcode.Statement (.xori rd rs1 imm12) := by
  exact encI_opcode _ _ _ _ _

theorem Laws.EncodedOpcode.ori (rd rs1 : Reg) (imm12 : BitVec 12) : Laws.EncodedOpcode.Statement (.ori rd rs1 imm12) := by
  exact encI_opcode _ _ _ _ _

theorem Laws.EncodedOpcode.andi (rd rs1 : Reg) (imm12 : BitVec 12) : Laws.EncodedOpcode.Statement (.andi rd rs1 imm12) := by
  exact encI_opcode _ _ _ _ _

theorem Laws.EncodedOpcode.slli (rd rs1 : Reg) (imm5 : BitVec 5) : Laws.EncodedOpcode.Statement (.slli rd rs1 imm5) := by
  exact encR_opcode _ _ _ _ _ _

theorem Laws.EncodedOpcode.srli (rd rs1 : Reg) (imm5 : BitVec 5) : Laws.EncodedOpcode.Statement (.srli rd rs1 imm5) := by
  exact encR_opcode _ _ _ _ _ _

theorem Laws.EncodedOpcode.srai (rd rs1 : Reg) (imm5 : BitVec 5) : Laws.EncodedOpcode.Statement (.srai rd rs1 imm5) := by
  exact encR_opcode _ _ _ _ _ _

theorem Laws.EncodedOpcode.jalr (rd rs1 : Reg) (imm12 : BitVec 12) : Laws.EncodedOpcode.Statement (.jalr rd rs1 imm12) := by
  exact encI_opcode _ _ _ _ _

theorem Laws.EncodedOpcode.lw (rd rs1 : Reg) (imm12 : BitVec 12) : Laws.EncodedOpcode.Statement (.lw rd rs1 imm12) := by
  exact encI_opcode _ _ _ _ _

theorem Laws.EncodedOpcode.lh (rd rs1 : Reg) (imm12 : BitVec 12) : Laws.EncodedOpcode.Statement (.lh rd rs1 imm12) := by
  exact encI_opcode _ _ _ _ _

theorem Laws.EncodedOpcode.lhu (rd rs1 : Reg) (imm12 : BitVec 12) : Laws.EncodedOpcode.Statement (.lhu rd rs1 imm12) := by
  exact encI_opcode _ _ _ _ _

theorem Laws.EncodedOpcode.lb (rd rs1 : Reg) (imm12 : BitVec 12) : Laws.EncodedOpcode.Statement (.lb rd rs1 imm12) := by
  exact encI_opcode _ _ _ _ _

theorem Laws.EncodedOpcode.lbu (rd rs1 : Reg) (imm12 : BitVec 12) : Laws.EncodedOpcode.Statement (.lbu rd rs1 imm12) := by
  exact encI_opcode _ _ _ _ _

theorem Laws.EncodedOpcode.csrrw (rd : Reg) (csr : CsrNum) (rs1 : Reg) : Laws.EncodedOpcode.Statement (.csrrw rd csr rs1) := by
  exact encI_opcode _ _ _ _ _

theorem Laws.EncodedOpcode.csrrs (rd : Reg) (csr : CsrNum) (rs1 : Reg) : Laws.EncodedOpcode.Statement (.csrrs rd csr rs1) := by
  exact encI_opcode _ _ _ _ _

theorem Laws.EncodedOpcode.csrrc (rd : Reg) (csr : CsrNum) (rs1 : Reg) : Laws.EncodedOpcode.Statement (.csrrc rd csr rs1) := by
  exact encI_opcode _ _ _ _ _

theorem Laws.EncodedOpcode.csrrwi (rd : Reg) (csr : CsrNum) (imm5 : BitVec 5) : Laws.EncodedOpcode.Statement (.csrrwi rd csr imm5) := by
  exact encI_opcode _ _ _ _ _

theorem Laws.EncodedOpcode.csrrsi (rd : Reg) (csr : CsrNum) (imm5 : BitVec 5) : Laws.EncodedOpcode.Statement (.csrrsi rd csr imm5) := by
  exact encI_opcode _ _ _ _ _

theorem Laws.EncodedOpcode.csrrci (rd : Reg) (csr : CsrNum) (imm5 : BitVec 5) : Laws.EncodedOpcode.Statement (.csrrci rd csr imm5) := by
  exact encI_opcode _ _ _ _ _

theorem Laws.EncodedOpcode.ecall : Laws.EncodedOpcode.Statement (.ecall) := by
  exact encI_opcode _ _ _ _ _

theorem Laws.EncodedOpcode.ebreak : Laws.EncodedOpcode.Statement (.ebreak) := by
  exact encI_opcode _ _ _ _ _

theorem Laws.EncodedOpcode.lui (rd : Reg) (imm20 : BitVec 20) : Laws.EncodedOpcode.Statement (.lui rd imm20) := by
  exact encU_opcode _ _ _

theorem Laws.EncodedOpcode.auipc (rd : Reg) (imm20 : BitVec 20) : Laws.EncodedOpcode.Statement (.auipc rd imm20) := by
  exact encU_opcode _ _ _

theorem Laws.EncodedOpcode.add (rd rs1 rs2 : Reg) : Laws.EncodedOpcode.Statement (.add rd rs1 rs2) := by
  exact encR_opcode _ _ _ _ _ _

theorem Laws.EncodedOpcode.sub (rd rs1 rs2 : Reg) : Laws.EncodedOpcode.Statement (.sub rd rs1 rs2) := by
  exact encR_opcode _ _ _ _ _ _

theorem Laws.EncodedOpcode.slt (rd rs1 rs2 : Reg) : Laws.EncodedOpcode.Statement (.slt rd rs1 rs2) := by
  exact encR_opcode _ _ _ _ _ _

theorem Laws.EncodedOpcode.sltu (rd rs1 rs2 : Reg) : Laws.EncodedOpcode.Statement (.sltu rd rs1 rs2) := by
  exact encR_opcode _ _ _ _ _ _

theorem Laws.EncodedOpcode.and (rd rs1 rs2 : Reg) : Laws.EncodedOpcode.Statement (.and rd rs1 rs2) := by
  exact encR_opcode _ _ _ _ _ _

theorem Laws.EncodedOpcode.or (rd rs1 rs2 : Reg) : Laws.EncodedOpcode.Statement (.or rd rs1 rs2) := by
  exact encR_opcode _ _ _ _ _ _

theorem Laws.EncodedOpcode.xor (rd rs1 rs2 : Reg) : Laws.EncodedOpcode.Statement (.xor rd rs1 rs2) := by
  exact encR_opcode _ _ _ _ _ _

theorem Laws.EncodedOpcode.sll (rd rs1 rs2 : Reg) : Laws.EncodedOpcode.Statement (.sll rd rs1 rs2) := by
  exact encR_opcode _ _ _ _ _ _

theorem Laws.EncodedOpcode.srl (rd rs1 rs2 : Reg) : Laws.EncodedOpcode.Statement (.srl rd rs1 rs2) := by
  exact encR_opcode _ _ _ _ _ _

theorem Laws.EncodedOpcode.sra (rd rs1 rs2 : Reg) : Laws.EncodedOpcode.Statement (.sra rd rs1 rs2) := by
  exact encR_opcode _ _ _ _ _ _

theorem Laws.EncodedOpcode.jal (rd : Reg) (imm21 : BitVec 21) : Laws.EncodedOpcode.Statement (.jal rd imm21) := by
  exact encJ_opcode _ _ _

theorem Laws.EncodedOpcode.beq (rs1 rs2 : Reg) (imm13 : BitVec 13) : Laws.EncodedOpcode.Statement (.beq rs1 rs2 imm13) := by
  exact encB_opcode _ _ _ _ _

theorem Laws.EncodedOpcode.bne (rs1 rs2 : Reg) (imm13 : BitVec 13) : Laws.EncodedOpcode.Statement (.bne rs1 rs2 imm13) := by
  exact encB_opcode _ _ _ _ _

theorem Laws.EncodedOpcode.blt (rs1 rs2 : Reg) (imm13 : BitVec 13) : Laws.EncodedOpcode.Statement (.blt rs1 rs2 imm13) := by
  exact encB_opcode _ _ _ _ _

theorem Laws.EncodedOpcode.bltu (rs1 rs2 : Reg) (imm13 : BitVec 13) : Laws.EncodedOpcode.Statement (.bltu rs1 rs2 imm13) := by
  exact encB_opcode _ _ _ _ _

theorem Laws.EncodedOpcode.bge (rs1 rs2 : Reg) (imm13 : BitVec 13) : Laws.EncodedOpcode.Statement (.bge rs1 rs2 imm13) := by
  exact encB_opcode _ _ _ _ _

theorem Laws.EncodedOpcode.bgeu (rs1 rs2 : Reg) (imm13 : BitVec 13) : Laws.EncodedOpcode.Statement (.bgeu rs1 rs2 imm13) := by
  exact encB_opcode _ _ _ _ _

theorem Laws.EncodedOpcode.sw (rs2 rs1 : Reg) (imm12 : BitVec 12) : Laws.EncodedOpcode.Statement (.sw rs2 rs1 imm12) := by
  exact encS_opcode _ _ _ _ _

theorem Laws.EncodedOpcode.sh (rs2 rs1 : Reg) (imm12 : BitVec 12) : Laws.EncodedOpcode.Statement (.sh rs2 rs1 imm12) := by
  exact encS_opcode _ _ _ _ _

theorem Laws.EncodedOpcode.sb (rs2 rs1 : Reg) (imm12 : BitVec 12) : Laws.EncodedOpcode.Statement (.sb rs2 rs1 imm12) := by
  exact encS_opcode _ _ _ _ _

theorem Laws.EncodedOpcode.fence (pred succ : FenceSet) : Laws.EncodedOpcode.Statement (.fence pred succ) := by
  exact encI_opcode _ _ _ _ _

theorem Laws.EncodedOpcode.fenceI : Laws.EncodedOpcode.Statement (.fenceI) := by
  exact encI_opcode _ _ _ _ _

end Sys2Proof
end

