-- ==== Sys2Proof/Tests/Slice0.lean ====
section
/-! SUPPORT. Tests and witnesses. Every expected result is an example of spec/ (the rule stands with each
test) or worked out by hand from a rule; none is the model's own answer. The witnesses show that the
hypotheses of each statement can be met together. -/

namespace Sys2Proof.Tests

open Sys2Proof.Machine

/-! ## Ill-formed terms (spec/00_scope.md R12) -/

theorem test_illformed_jal : WellFormed (.jal 1#5 3#21) = false := by decide
theorem test_illformed_beq : WellFormed (.beq 6#5 7#5 1#13) = false := by decide
theorem test_illformed_bne : WellFormed (.bne 6#5 7#5 17#13) = false := by decide
theorem test_illformed_blt : WellFormed (.blt 6#5 7#5 (-1#13)) = false := by decide
theorem test_illformed_bltu : WellFormed (.bltu 6#5 7#5 5#13) = false := by decide
theorem test_illformed_bge : WellFormed (.bge 6#5 7#5 0x1001#13) = false := by decide
theorem test_illformed_bgeu : WellFormed (.bgeu 6#5 7#5 7#13) = false := by decide

/-! ## One word of the spec for every instruction -/

/-- Words of spec/40_op_imm.md R120 to R128. -/
theorem test_decode_op_imm :
    decode 0xFFF30293#32 = .ok (.addi 5#5 6#5 0xFFF#12) ∧ decode 0x00532293#32 = .ok (.slti 5#5 6#5 5#12) ∧
    decode 0xFFF33293#32 = .ok (.sltiu 5#5 6#5 0xFFF#12) ∧ decode 0x0FF34293#32 = .ok (.xori 5#5 6#5 255#12) ∧
    decode 0x80036293#32 = .ok (.ori 5#5 6#5 0x800#12) ∧ decode 0xFF037293#32 = .ok (.andi 5#5 6#5 0xFF0#12) ∧
    decode 0x01F31293#32 = .ok (.slli 5#5 6#5 31#5) ∧ decode 0x00435293#32 = .ok (.srli 5#5 6#5 4#5) ∧
    decode 0x41F35293#32 = .ok (.srai 5#5 6#5 31#5) := ⟨rfl, rfl, rfl, rfl, rfl, rfl, rfl, rfl, rfl⟩

/-- Words of spec/41_jalr_loads.md R140 to R146. -/
theorem test_decode_jalr_loads :
    decode 0xFFD300E7#32 = .ok (.jalr 1#5 6#5 0xFFD#12) ∧ decode 0x00132283#32 = .ok (.lw 5#5 6#5 1#12) ∧
    decode 0x00231283#32 = .ok (.lh 5#5 6#5 2#12) ∧ decode 0x00235283#32 = .ok (.lhu 5#5 6#5 2#12) ∧
    decode 0x00130283#32 = .ok (.lb 5#5 6#5 1#12) ∧ decode 0xFFF34283#32 = .ok (.lbu 5#5 6#5 0xFFF#12) :=
  ⟨rfl, rfl, rfl, rfl, rfl, rfl⟩

/-- Words of spec/42_system.md R162 to R169. -/
theorem test_decode_system :
    decode 0x800312F3#32 = .ok (.csrrw 5#5 0x800#12 6#5) ∧ decode 0xC02322F3#32 = .ok (.csrrs 5#5 0xC02#12 6#5) ∧
    decode 0x800332F3#32 = .ok (.csrrc 5#5 0x800#12 6#5) ∧ decode 0xC001D073#32 = .ok (.csrrwi 0#5 0xC00#12 3#5) ∧
    decode 0x8002E2F3#32 = .ok (.csrrsi 5#5 0x800#12 5#5) ∧ decode 0xC01FF2F3#32 = .ok (.csrrci 5#5 0xC01#12 31#5) ∧
    decode 0x00000073#32 = .ok .ecall ∧ decode 0x00100073#32 = .ok .ebreak :=
  ⟨rfl, rfl, rfl, rfl, rfl, rfl, rfl, rfl⟩

/-- Words of spec/43_upper_imm.md R180, R181 and spec/45_jal.md R210. -/
theorem test_decode_upper_jal :
    decode 0x123452B7#32 = .ok (.lui 5#5 0x12345#20) ∧ decode 0xFFFFF297#32 = .ok (.auipc 5#5 0xFFFFF#20) ∧
    decode 0x344120EF#32 = .ok (.jal 1#5 0x12344#21) ∧ decode 0x800002EF#32 = .ok (.jal 5#5 0x100000#21) :=
  ⟨rfl, rfl, rfl, rfl⟩

/-- Words of spec/44_register.md R190 to R199. -/
theorem test_decode_register :
    decode 0x007302B3#32 = .ok (.add 5#5 6#5 7#5) ∧ decode 0x407302B3#32 = .ok (.sub 5#5 6#5 7#5) ∧
    decode 0x007322B3#32 = .ok (.slt 5#5 6#5 7#5) ∧ decode 0x007032B3#32 = .ok (.sltu 5#5 0#5 7#5) ∧
    decode 0x007372B3#32 = .ok (.and 5#5 6#5 7#5) ∧ decode 0x007362B3#32 = .ok (.or 5#5 6#5 7#5) ∧
    decode 0x007342B3#32 = .ok (.xor 5#5 6#5 7#5) ∧ decode 0x007312B3#32 = .ok (.sll 5#5 6#5 7#5) ∧
    decode 0x007352B3#32 = .ok (.srl 5#5 6#5 7#5) ∧ decode 0x407352B3#32 = .ok (.sra 5#5 6#5 7#5) :=
  ⟨rfl, rfl, rfl, rfl, rfl, rfl, rfl, rfl, rfl, rfl⟩

/-- Words of spec/46_branch.md R216 to R221. -/
theorem test_decode_branch :
    decode 0xFE730CE3#32 = .ok (.beq 6#5 7#5 0x1FF8#13) ∧ decode 0x7E001FE3#32 = .ok (.bne 0#5 0#5 4094#13) ∧
    decode 0x2A734EE3#32 = .ok (.blt 6#5 7#5 0xABC#13) ∧ decode 0x00736863#32 = .ok (.bltu 6#5 7#5 16#13) ∧
    decode 0x00735863#32 = .ok (.bge 6#5 7#5 16#13) ∧ decode 0x00007063#32 = .ok (.bgeu 0#5 0#5 0#13) :=
  ⟨rfl, rfl, rfl, rfl, rfl, rfl⟩

/-- Words of spec/47_store.md R230 to R232 and spec/48_fence.md R240, R244. -/
theorem test_decode_store_fence :
    decode 0x7A7322A3#32 = .ok (.sw 7#5 6#5 0x7A5#12) ∧ decode 0x80732023#32 = .ok (.sw 7#5 6#5 0x800#12) ∧
    decode 0x00731123#32 = .ok (.sh 7#5 6#5 2#12) ∧ decode 0xFE730FA3#32 = .ok (.sb 7#5 6#5 0xFFF#12) ∧
    decode 0x0120000F#32 = .ok (.fence ⟨false, false, false, true⟩ ⟨false, false, true, false⟩) ∧
    decode 0x0000100F#32 = .ok .fenceI := ⟨rfl, rfl, rfl, rfl, rfl, rfl⟩

/-- The all-zero and the all-one word are illegal (R96); so are a shift immediate with a wrong upper section
(R82), a MUL (R94), an MRET (R293), and a fence with a reserved bit (R97). -/
theorem test_decode_illegal :
    decode 0x00000000#32 = .error (.noRow 0x00000000#32) ∧ decode 0xFFFFFFFF#32 = .error (.noRow 0xFFFFFFFF#32) ∧
    decode 0x02031293#32 = .error (.noRow 0x02031293#32) ∧ decode 0x027302B3#32 = .error (.noRow 0x027302B3#32) ∧
    decode 0x30200073#32 = .error (.noRow 0x30200073#32) ∧ decode 0x8330000F#32 = .error (.noRow 0x8330000F#32) :=
  ⟨rfl, rfl, rfl, rfl, rfl, rfl⟩

/-- Bytes in memory order, and too few of them (R80, R50). -/
theorem test_decode_bytes :
    decodeBytes [0x93#8, 0x02#8, 0xF3#8, 0xFF#8, 0x13#8] = .ok (.addi 5#5 6#5 0xFFF#12, [0x13#8]) ∧
    decodeBytes [0x93#8, 0x02#8, 0xF3#8] = .error .truncated ∧
    decodeTableWord 32 0xFFF30293 = some (.addi 5#5 6#5 0xFFF#12) ∧ decodeTableWord 32 0 = none :=
  ⟨rfl, rfl, rfl, rfl⟩

/-! ## One step from reset -/

/-- The hart after reset, at 0x00001000, with `x6`, `x7` and some bytes of memory given. -/
def hart (x6 x7 : Word) (mem : Memory := []) : State :=
  { (State.reset.setReg 6#5 x6).setReg 7#5 x7 with mem := mem }

/-- The outcome is a next state of which `p` holds. -/
def nextIs (r : Result) (p : State → Bool) : Bool :=
  match r with
  | .next t => p t
  | .fault _ => false
  | .refused _ => false

/-- The step that runs this word from `s` gives a next state of which `p` holds. -/
def ran (w : Word) (s : State) (p : State → Bool) : Bool := nextIs (step (s.withFetchWord 32 w.toNat)) p

/-- With `x6` and `x7` given, the word leaves `v` in `x5`, goes on at 0x00001004 and retires. -/
def gives (w x6 x7 v : Word) : Bool :=
  ran w (hart x6 x7) (fun t =>
    t.reg 5#5 == v && t.pc == 0x00001004#32 && t.instretCtr == 1#64 && t.trap == none)

/-- With `x6` and `x7` given, the word goes on at `next` with `link` in `x1`. -/
def goes (w x6 x7 next link : Word) : Bool :=
  ran w (hart x6 x7) (fun t => t.pc == next && t.reg 1#5 == link && t.trap == none)

/-- From `s` the word takes the trap: the record is as given, and `pc`, `x5` and instret are as before. -/
def trapsWith (w : Word) (s : State) (cause : Cause) (code : Nat) (info : Word) : Bool :=
  ran w s (fun t =>
    t.trap == some { cause := cause, code := code, epc := s.pc, info := info } && t.pc == s.pc &&
      t.reg 5#5 == s.reg 5#5 && t.instretCtr == s.instretCtr)

/-- The memory of the load examples (spec/41_jalr_loads.md). -/
def loadMemory : Memory := [(0x2000, 0x80#8), (0x2001, 0xFF#8), (0x2002, 0x7F#8), (0x2003, 0x12#8), (0x2004, 0xAB#8)]

/-- The memory of the store examples: eight bytes EE (spec/47_store.md). -/
def storeMemory : Memory := (List.range 8).map (fun k => (0x2000 + k, 0xEE#8))

/-- With `x6` = 00002000 the load leaves `v` in `x5`. -/
def loadsTo (w v : Word) : Bool :=
  ran w (hart 0x2000#32 0#32 loadMemory) (fun t => t.reg 5#5 == v && t.pc == 0x00001004#32 && t.trap == none)

/-- With `x6` and `x7` given, the store leaves these bytes from 00002000 up. -/
def leaves (w x6 x7 : Word) (bytes : List Byte) : Bool :=
  ran w (hart x6 x7 storeMemory) (fun t =>
    (List.range bytes.length).map (fun k => t.byteAt (0x2000#32 + BitVec.ofNat 32 k)) == bytes &&
      t.pc == 0x00001004#32 && t.trap == none)

/-- The test extension of spec/42_system.md: a writable CSR 0x800 that holds 000000AA; and
a read-only one, and two whose read and write functions are the platform's. -/
def extended (x6 : Word) : State :=
  { hart x6 0#32 with
    instretCtr := 0x0000000100000007#64
    extCsrs :=
      [(0x800#12, { writable := true, behaviour := .storage, value := 0xAA#32 }),
        (0x801#12, { writable := false, behaviour := .storage, value := 0xBB#32 }),
        (0x802#12, { writable := true, behaviour := .custom, value := 0xCC#32 }),
        (0x803#12, { writable := false, behaviour := .custom, value := 0xDD#32 })] }

/-- With `x6` given, the word leaves `v` in `x5` and `csr` in CSR 0x800. -/
def csrGives (w x6 v csr : Word) : Bool :=
  ran w (extended x6) (fun t =>
    t.reg 5#5 == v && findCsr 0x800#12 t.extCsrs == some { writable := true, behaviour := .storage, value := csr } && t.trap == none &&
      t.pc == 0x00001004#32)

/-- R120 to R122. -/
theorem test_addi : gives 0xFFF30293#32 0#32 0#32 0xFFFFFFFF#32 = true ∧
    gives 0x00130293#32 0x7FFFFFFF#32 0#32 0x80000000#32 = true := by decide
theorem test_slti : gives 0xFFF32293#32 0xFFFFFFFE#32 0#32 1#32 = true ∧
    gives 0x00532293#32 5#32 0#32 0#32 = true := by decide
theorem test_sltiu : gives 0xFFF33293#32 0xFFFFFFFE#32 0#32 1#32 = true ∧
    gives 0xFFF33293#32 0xFFFFFFFF#32 0#32 0#32 = true := by decide

/-- R123 to R125. -/
theorem test_xori : gives 0xFFF34293#32 0x12345678#32 0#32 0xEDCBA987#32 = true ∧
    gives 0x0FF34293#32 0x12345678#32 0#32 0x12345687#32 = true := by decide
theorem test_ori : gives 0x80036293#32 1#32 0#32 0xFFFFF801#32 = true ∧
    gives 0x0F036293#32 0xF#32 0#32 0xFF#32 = true := by decide
theorem test_andi : gives 0x0FF37293#32 0x12345678#32 0#32 0x78#32 = true ∧
    gives 0xFF037293#32 0x12345678#32 0#32 0x12345670#32 = true := by decide

/-- R126 to R128. -/
theorem test_slli : gives 0x00431293#32 0xF0000001#32 0#32 0x10#32 = true ∧
    gives 0x01F31293#32 3#32 0#32 0x80000000#32 = true := by decide
theorem test_srli : gives 0x00435293#32 0x80000010#32 0#32 0x08000001#32 = true ∧
    gives 0x01F35293#32 0x80000000#32 0#32 1#32 = true := by decide
theorem test_srai : gives 0x40435293#32 0x80000010#32 0#32 0xF8000001#32 = true ∧
    gives 0x41F35293#32 0x7FFFFFFF#32 0#32 0#32 = true := by decide

/-- R140: the target from the old `x[rs1]`, bit 0 cleared; and a misaligned target. -/
theorem test_jalr : goes 0xFFD300E7#32 0x2004#32 0#32 0x2000#32 0x1004#32 = true ∧
    trapsWith 0x003300E7#32 (hart 0x2000#32 0#32) .instructionAddressMisaligned 0 0x2002#32 = true := by decide
theorem test_jalr_same_register : ran 0x00430367#32 (hart 0x3000#32 0#32) (fun t =>
    t.pc == 0x3004#32 && t.reg 6#5 == 0x1004#32) = true := by decide

/-- R142 to R146. -/
theorem test_lw : loadsTo 0x00032283#32 0x127FFF80#32 = true ∧ loadsTo 0x00132283#32 0xAB127FFF#32 = true := by
  decide
theorem test_lh : loadsTo 0x00031283#32 0xFFFFFF80#32 = true ∧ loadsTo 0x00131283#32 0x7FFF#32 = true := by
  decide
theorem test_lhu : loadsTo 0x00035283#32 0xFF80#32 = true ∧ loadsTo 0x00235283#32 0x127F#32 = true := by
  decide
theorem test_lb : loadsTo 0x00030283#32 0xFFFFFF80#32 = true ∧ loadsTo 0x00230283#32 0x7F#32 = true := by
  decide
/-- R146: the second reads the byte at FFFFFFFF, below address 0. -/
theorem test_lbu : loadsTo 0x00134283#32 0xFF#32 = true ∧
    ran 0xFFF34283#32 (hart 0#32 0#32 [(0xFFFFFFFF, 0x5A#8)]) (fun t => t.reg 5#5 == 0x5A#32) = true := by
  decide

/-- R162 to R167: the test extension, and the counters that cannot be written. -/
theorem test_csrrw : csrGives 0x800312F3#32 0xF#32 0xAA#32 0xF#32 = true ∧
    trapsWith 0xC0031073#32 (extended 0xF#32) .illegalInstruction 2 0xC0031073#32 = true := by decide
theorem test_csrrs : csrGives 0x800322F3#32 0xF#32 0xAA#32 0xAF#32 = true ∧
    csrGives 0xC82022F3#32 0xF#32 1#32 0xAA#32 = true := by decide
theorem test_csrrs_counter : csrGives 0xC02022F3#32 0xF#32 7#32 0xAA#32 = true ∧
    trapsWith 0xC02322F3#32 (extended 0#32) .illegalInstruction 2 0xC02322F3#32 = true := by decide
theorem test_csrrc : csrGives 0x800332F3#32 0xF#32 0xAA#32 0xA0#32 = true ∧
    trapsWith 0xC02332F3#32 (extended 0#32) .illegalInstruction 2 0xC02332F3#32 = true := by decide
theorem test_csrrwi : csrGives 0x8001D2F3#32 0xF#32 0xAA#32 3#32 = true ∧
    trapsWith 0xC001D073#32 (extended 0#32) .illegalInstruction 2 0xC001D073#32 = true := by decide
theorem test_csrrsi : csrGives 0x8002E2F3#32 0xF#32 0xAA#32 0xAF#32 = true ∧
    trapsWith 0xC020E2F3#32 (extended 0#32) .illegalInstruction 2 0xC020E2F3#32 = true := by decide
theorem test_csrrci : csrGives 0x800572F3#32 0xF#32 0xAA#32 0xA0#32 = true ∧
    trapsWith 0xC01FF2F3#32 (extended 0#32) .illegalInstruction 2 0xC01FF2F3#32 = true := by decide

/-- What a state after the word holds in the four CSRs of the platform. -/
def csrsAfter (w : Word) (s : State) : Option (List Word) :=
  match step (s.withFetchWord 32 w.toNat) with
  | .next t => some (t.extCsrs.map (fun c => c.2.value))
  | .fault _ => none
  | .refused _ => none

/-- R162, R328: `CSRRW x0, 0x802, x6` only writes: the write function and the side effect of the write, none of
a read, and the storage CSRs are left alone. -/
theorem test_custom_write : csrsAfter 0x80231073#32 (extended 0xF#32) =
    some [0xAA#32, 0xBB#32, Config.csrWriteValue 0 0x802#12 0xCC#32 0xF#32,
      Config.csrWriteEffect 0 0x802#12 0xF#32 0x803#12 0xDD#32] := rfl

/-- R163: `CSRRS x0, 0x802, x0` only reads, and has the side effect of the read with `rd = x0` too. -/
theorem test_custom_read : csrsAfter 0x80202073#32 (extended 0xF#32) =
    some [0xAA#32, 0xBB#32, Config.csrReadEffect 0 0x802#12 0x802#12 0xCC#32,
      Config.csrReadEffect 0 0x802#12 0x803#12 0xDD#32] := rfl

/-- R168, R169. -/
theorem test_ecall : trapsWith 0x00000073#32 (hart 0#32 0#32) .environmentCall 11 0#32 = true := by decide
theorem test_ebreak : trapsWith 0x00100073#32 (hart 0#32 0#32) .breakpoint 3 0x00001000#32 = true := by
  decide

/-- R180, R181. -/
theorem test_lui : gives 0x123452B7#32 0#32 0#32 0x12345000#32 = true ∧
    gives 0xFFFFF2B7#32 0#32 0#32 0xFFFFF000#32 = true := by decide
theorem test_auipc : gives 0x12345297#32 0#32 0#32 0x12346000#32 = true ∧
    gives 0xFFFFF297#32 0#32 0#32 0#32 = true := by decide

/-- R190 to R193. -/
theorem test_add : gives 0x007302B3#32 0x7FFFFFFF#32 1#32 0x80000000#32 = true ∧
    gives 0x007302B3#32 3#32 4#32 7#32 = true := by decide
theorem test_sub : gives 0x407302B3#32 3#32 5#32 0xFFFFFFFE#32 = true ∧
    gives 0x407002B3#32 0#32 1#32 0xFFFFFFFF#32 = true := by decide
theorem test_slt : gives 0x007322B3#32 0xFFFFFFFF#32 1#32 1#32 = true ∧
    gives 0x007322B3#32 1#32 0xFFFFFFFF#32 0#32 = true := by decide
theorem test_sltu : gives 0x007332B3#32 1#32 0xFFFFFFFF#32 1#32 = true ∧
    gives 0x007332B3#32 0xFFFFFFFF#32 1#32 0#32 = true := by decide

/-- R194 to R196. -/
theorem test_and : gives 0x007372B3#32 0xF0F0F0F0#32 0xFF00FF00#32 0xF000F000#32 = true := by decide
theorem test_or : gives 0x007362B3#32 0xF0F0F0F0#32 0xFF00FF00#32 0xFFF0FFF0#32 = true := by decide
theorem test_xor : gives 0x007342B3#32 0xF0F0F0F0#32 0xFF00FF00#32 0x0FF00FF0#32 = true := by decide

/-- R197 to R199: only the low five bits of the amount count. -/
theorem test_sll : gives 0x007312B3#32 1#32 0x20#32 1#32 = true ∧
    gives 0x007312B3#32 0xF0000001#32 0x24#32 0x10#32 = true := by decide
theorem test_srl : gives 0x007352B3#32 0x80000000#32 0x1F#32 1#32 = true ∧
    gives 0x007352B3#32 0x80000000#32 0x20#32 0x80000000#32 = true := by decide
theorem test_sra : gives 0x407352B3#32 0x80000000#32 0x1F#32 0xFFFFFFFF#32 = true ∧
    gives 0x407352B3#32 0xFFFFFFF1#32 0x21#32 0xFFFFFFF8#32 = true := by decide

/-- R210. -/
theorem test_jal : goes 0x344120EF#32 0#32 0#32 0x00013344#32 0x1004#32 = true ∧
    trapsWith 0x002000EF#32 (hart 0#32 0#32) .instructionAddressMisaligned 0 0x1002#32 = true := by decide

/-- R216 to R221: a backward branch, a scattered offset, one taken and one not taken of each pair. -/
theorem test_beq : goes 0xFE730CE3#32 5#32 5#32 0x0FF8#32 0#32 = true ∧
    trapsWith 0x00000163#32 (hart 0#32 0#32) .instructionAddressMisaligned 0 0x1002#32 = true := by decide
theorem test_bne : goes 0x00731863#32 5#32 6#32 0x1010#32 0#32 = true ∧
    goes 0x7E001FE3#32 0#32 0#32 0x1004#32 0#32 = true := by decide
theorem test_blt : goes 0x2A734EE3#32 0#32 1#32 0x1ABC#32 0#32 = true ∧
    goes 0x00734863#32 1#32 0xFFFFFFFF#32 0x1004#32 0#32 = true := by decide
theorem test_bltu : goes 0x00736863#32 1#32 0xFFFFFFFF#32 0x1010#32 0#32 = true ∧
    goes 0x00736863#32 5#32 5#32 0x1004#32 0#32 = true := by decide
theorem test_bge : goes 0x00735863#32 1#32 0xFFFFFFFF#32 0x1010#32 0#32 = true ∧
    goes 0x00735863#32 0xFFFFFFFF#32 1#32 0x1004#32 0#32 = true := by decide
theorem test_bgeu : goes 0x00737863#32 5#32 5#32 0x1010#32 0#32 = true ∧
    goes 0x00737863#32 1#32 0xFFFFFFFF#32 0x1004#32 0#32 = true := by decide

/-- R230 to R232: an aligned and a misaligned word, the low halfword, the low byte. -/
theorem test_sw : leaves 0x00732023#32 0x2000#32 0x11223344#32 [0x44#8, 0x33#8, 0x22#8, 0x11#8, 0xEE#8] = true ∧
    leaves 0x007320A3#32 0x2000#32 0x11223344#32 [0xEE#8, 0x44#8, 0x33#8, 0x22#8, 0x11#8, 0xEE#8] = true := by
  decide
theorem test_sh : leaves 0x00731123#32 0x2000#32 0x11223344#32 [0xEE#8, 0xEE#8, 0x44#8, 0x33#8, 0xEE#8] = true ∧
    leaves 0x00731023#32 0x2000#32 0xFFFF8001#32 [0x01#8, 0x80#8, 0xEE#8] = true := by decide
theorem test_sb : leaves 0x007301A3#32 0x2000#32 0x11223344#32 [0xEE#8, 0xEE#8, 0xEE#8, 0x44#8, 0xEE#8] = true ∧
    ran 0xFE730FA3#32 (hart 0#32 0x1FF#32) (fun t => t.byteAt 0xFFFFFFFF#32 == 0xFF#8) = true := by decide

/-- R240: FENCE leaves the unsynced set; R244: FENCE.I empties it. -/
theorem test_fence : ran 0x0FF0000F#32 { hart 0#32 0#32 with unsynced := [(0x2000, none)] } (fun t =>
    t.unsynced == [(0x2000, none)] && t.pc == 0x1004#32 && t.instretCtr == 1#64) = true := by decide
theorem test_fence_i : ran 0x0000100F#32 { hart 0#32 0#32 with unsynced := [(0x2000, none)] } (fun t =>
    t.unsynced == [] && t.pc == 0x1004#32 && t.instretCtr == 1#64) = true := by decide

/-! ## Exceptions of memory accesses (spec/60_exceptions.md R286 to R289, R292; R282) -/

/-- A platform that traps misaligned accesses, and whose addresses 3000 to 3003 exist for no access. -/
def strict (x6 x7 : Word) : State :=
  { hart x6 x7 loadMemory with
    platform :=
      { misaligned := .trap
        holes := [⟨.load, 0x3000, 0x3003⟩, ⟨.store, 0x3000, 0x3003⟩, ⟨.fetch, 0x3000, 0x3003⟩]
        ecallCause := 8 } }

/-- R286 and R292: misaligned ranks above the fault of the same access. -/
theorem test_load_misaligned : trapsWith 0x00132283#32 (strict 0x2000#32 0#32) .loadAddressMisaligned 4 0x2001#32 = true ∧
    trapsWith 0x00132283#32 (strict 0x2FFE#32 0#32) .loadAddressMisaligned 4 0x2FFF#32 = true := by decide
/-- R287: the info is the effective address. -/
theorem test_load_fault : trapsWith 0x00032283#32 (strict 0x3000#32 0#32) .loadAccessFault 5 0x3000#32 = true := by
  decide
/-- R289: a store that straddles the edge writes none of its bytes. -/
theorem test_store_straddles : ran 0x00732023#32
    { strict 0x2FFE#32 0x11223344#32 with platform := { (strict 0#32 0#32).platform with misaligned := .split } }
    (fun t => findAt 0x2FFE t.mem == none && t.unsynced == [] && (t.trap == some
      { cause := .storeAccessFault, code := 7, epc := 0x1000#32, info := 0x2FFE#32 })) = true := by decide
/-- R282 and U14: a fetch fault, and no step after the trap. -/
theorem test_fetch_fault : nextIs (step { strict 0#32 0#32 with pc := 0x3000#32 }) (fun t =>
    t.trap == some { cause := .instructionAccessFault, code := 1, epc := 0x3000#32, info := 0x3000#32 } &&
      (match step t with
        | .fault .runEnded => true
        | _ => false)) = true := by decide
/-- R285: the platform's cause. -/
theorem test_ecall_cause : trapsWith 0x00000073#32 (strict 0#32 0#32) .environmentCall 8 0#32 = true := by
  decide

/-! ## Pseudo-ops (spec/49_pseudo_ops.md) -/

theorem test_expand : encode (expand (.snez 5#5 7#5)) = 0x007032B3#32 ∧
    encode (expand (.bleu 6#5 7#5 16#13)) = 0x0063F863#32 ∧ encode (expand (.rdtimeh 5#5)) = 0xC81022F3#32 ∧
    encode (expand (.csrci 0xC00#12 4#5)) = 0xC0027073#32 ∧ encode (expand (.j 16#21)) = 0x0100006F#32 := by
  decide

/-! ## Words for each condition of R96 and R97 -/

/-- One word for each line of `IllegalWord`, in its order, and the all-one word. -/
def illegalWords : List Word :=
  [0x00000000#32, 0x00003003#32, 0x8330000F#32, 0x0330800F#32, 0x0000108F#32, 0x0000200F#32,
    0x02031293#32, 0x02035293#32, 0x00003023#32, 0x027302B3#32, 0x407312B3#32, 0x00002063#32,
    0x00001067#32, 0x00200073#32, 0x00004073#32, 0xFFFFFFFF#32]

theorem test_illegal_words_reject : illegalWords.all (fun w => (decode w).toOption.isNone) = true := by decide

theorem test_illegal_words_a : IllegalWord 0x00000000#32 ∧ IllegalWord 0x00003003#32 ∧ IllegalWord 0x8330000F#32 ∧ IllegalWord 0x0330800F#32 := by
  refine ⟨?_, ?_, ?_, ?_⟩ <;> unfold IllegalWord <;> decide

theorem test_illegal_words_b : IllegalWord 0x0000108F#32 ∧ IllegalWord 0x0000200F#32 ∧ IllegalWord 0x02031293#32 ∧ IllegalWord 0x02035293#32 := by
  refine ⟨?_, ?_, ?_, ?_⟩ <;> unfold IllegalWord <;> decide

theorem test_illegal_words_c : IllegalWord 0x00003023#32 ∧ IllegalWord 0x027302B3#32 ∧ IllegalWord 0x407312B3#32 ∧ IllegalWord 0x00002063#32 := by
  refine ⟨?_, ?_, ?_, ?_⟩ <;> unfold IllegalWord <;> decide

theorem test_illegal_words_d : IllegalWord 0x00001067#32 ∧ IllegalWord 0x00200073#32 ∧ IllegalWord 0x00004073#32 ∧ IllegalWord 0xFFFFFFFF#32 := by
  refine ⟨?_, ?_, ?_, ?_⟩ <;> unfold IllegalWord <;> decide

theorem test_legal_words : ¬ IllegalWord 0x41F35293#32 ∧ ¬ IllegalWord 0x407302B3#32 ∧ ¬ IllegalWord 0x0FF0000F#32 ∧
    ¬ IllegalWord 0x00000017#32 := by
  refine ⟨?_, ?_, ?_, ?_⟩ <;> unfold IllegalWord <;> decide

/-! ## Witnesses: for every statement with hypotheses, a state and operands that meet them -/

theorem next_of {r : Result} {p : State → Bool} (h : nextIs r p = true) : ∃ t, r = .next t ∧ p t = true := by
  cases r with
  | next t => exact ⟨t, rfl, h⟩
  | fault _ => cases h
  | refused _ => cases h

/-- The hart about to run one word. -/
def about (w : Word) : State := (hart 0x2000#32 0x11223344#32 loadMemory).withFetchWord 32 w.toNat

theorem witness_DecodeFollowsTheTable :
    (∃ r ∈ rows, 0xFFF30293#32 &&& r.mask = r.pattern) ∧ ∀ r ∈ rows, 0x00000000#32 &&& r.mask ≠ r.pattern := by
  decide

theorem witness_DecodeOfEncode : WellFormed (.jal 1#5 0x100000#21) = true ∧
    WellFormed (.bgeu 6#5 7#5 0xFFE#13) = true := by
  decide

theorem witness_EncodeOfDecode : decode 0x800002EF#32 = .ok (.jal 5#5 0x100000#21) := rfl

theorem witness_DecodeBytesOfEncodeBytes : WellFormed (.beq 6#5 7#5 0x1FFE#13) = true := by decide

theorem witness_IllegalWordsTrap :
    (about 0#32).trap = none ∧ (about 0#32).fetch = .ok 0#32 ∧ IllegalWord 0#32 :=
  ⟨rfl, rfl, test_illegal_words_a.1⟩

/-- At the last address of the space. -/
theorem witness_StepRunsDecoded :
    let s := { hart 0#32 0#32 with pc := 0xFFFFFFFC#32 }.withFetchWord 32 0x00000013
    s.trap = none ∧ s.pc.toNat % 4 = 0 ∧ AllValid s .fetch s.pc 4 ∧
      decode (s.fetchWordAt s.pc) = .ok (.addi 0#5 0#5 0#12) ∧ WellFormed (.addi 0#5 0#5 0#12) = true ∧
      ∀ k, k < 4 → findAt (s.pc + BitVec.ofNat 32 k).toNat s.unsynced = none := by
  refine ⟨rfl, by decide, ?_, rfl, rfl, by decide⟩
  unfold AllValid; decide

/-- A misaligned `pc`; a `pc` whose last byte alone is in the hole; a platform without holes. -/
theorem witness_FetchRaises :
    ({ hart 0#32 0#32 with pc := 0x2FFE#32 }.trap = none ∧ { hart 0#32 0#32 with pc := 0x2FFE#32 }.pc.toNat % 4 ≠ 0) ∧
    (let s := { hart 0#32 0#32 with platform := { Config.defaultPlatform with holes := [⟨.fetch, 0x1003, 0x1003⟩] } }
     s.trap = none ∧ s.pc.toNat % 4 = 0 ∧ ¬ AllValid s .fetch s.pc 4) ∧ (hart 0#32 0#32).platform.holes = [] := by
  refine ⟨⟨rfl, by decide⟩, ⟨rfl, by decide, ?_⟩, rfl⟩
  unfold AllValid; decide

theorem missing_csr : ¬ CsrExists (extended 0#32) 0x900#12 := by
  rintro (h | ⟨cell, h⟩)
  · exact absurd h (by decide)
  · exact absurd (show findCsr 0x900#12 (extended 0#32).extCsrs = none from rfl) (by rw [h]; exact Option.some_ne_none _)

theorem read_only_csr : ¬ CsrMayWrite (extended 0#32) 0x801#12 := by
  rintro ⟨-, cell, h, hw⟩
  have h' : some (CsrCell.mk false .storage 0xBB#32) = some cell := h
  simp only [Option.some.injEq] at h'
  rw [← h'] at hw
  cases hw

theorem counter_not_writable (s : State) : ¬ CsrMayWrite s 0xC82#12 := fun h => h.1 (by decide)

theorem writable_csr : CsrMayWrite (extended 0#32) 0x800#12 := ⟨by decide, _, rfl, rfl⟩

theorem writable_custom_csr : CsrMayWrite (extended 0#32) 0x802#12 := ⟨by decide, _, rfl, rfl⟩

theorem witness_IllegalInstructionCauses :
    ((about 0#32).trap = none ∧ (about 0#32).fetch = .ok 0#32 ∧ ∀ r ∈ rows, 0#32 &&& r.mask ≠ r.pattern) ∧
    ¬ CsrExists (extended 0#32) 0x900#12 ∧ ¬ CsrMayWrite (extended 0#32) 0x801#12 ∧
    ((1#5 : Reg) ≠ 0#5 ∧ ¬ CsrMayWrite (extended 0#32) 0xC82#12) :=
  ⟨⟨rfl, rfl, by decide⟩, missing_csr, read_only_csr, by decide, counter_not_writable _⟩

/-- A word over stored bytes at the last address of the space. -/
theorem witness_PlacedWordRuns :
    let s := { hart 0#32 0#32 with pc := 0xFFFFFFFC#32, unsynced := [(0xFFFFFFFF, none)] }
    s.pc.toNat % 4 = 0 ∧ AllValid s .fetch s.pc 4 ∧ decode 0x00000013#32 = .ok (.addi 0#5 0#5 0#12) ∧
      ∀ k, k < 4 → (0#32 : Word) ≠ s.pc + BitVec.ofNat 32 k := by
  refine ⟨by decide, ?_, rfl, by decide⟩
  unfold AllValid; decide

/-- One byte stored over at 00002000: that address is unsynced, its neighbour is not. -/
theorem witness_FetchSeesCurrentOrOldByte :
    let base := hart 0#32 0#32 loadMemory
    let s := base.storeBytes 0x2000#32 [0x55#8]
    OldBytesFrom base s ∧ findAt 0x2001 s.unsynced = none ∧ findAt 0x2000 s.unsynced ≠ none := by
  refine ⟨fun a => ?_, by decide, by decide⟩
  by_cases h : a = 0x2000#32
  · subst h; decide
  · have hn : a.toNat ≠ 0x2000 := fun e => h (BitVec.eq_of_toNat_eq e)
    have hu : findAt a.toNat ((hart 0#32 0#32 loadMemory).storeBytes 0x2000#32 [0x55#8]).unsynced = none := by
      show findAt a.toNat [(0x2000, some 0x80#8)] = none
      simp [findAt, hn]
    rw [hu]
    exact State.byteAt_storeBytes_outside _ _ _ _ (by simpa [spanOf] using hn)

theorem witness_OldBytesStayUntilFenceI :
    (about 0#32).unsynced = [] ∧ OldBytesFrom (about 0#32) (about 0#32) ∧
    (∃ t, exec (.sb 7#5 6#5 0xFFF#12) (about 0#32) = .next t) ∧ Instr.sb 7#5 6#5 0xFFF#12 ≠ .fenceI ∧
    ∃ t, exec .fenceI (about 0#32) = .next t := by
  refine ⟨rfl, fun a => ?_, ⟨_, rfl⟩, by decide, ⟨_, rfl⟩⟩
  have hu : (about 0#32).unsynced = [] := rfl
  simp [hu, findAt]

theorem witness_RunningHartAlwaysSteps :
    (about 0#32).trap = none ∧ ((about 0#32).takeTrap .breakpoint 0#32).trap =
      some { cause := .breakpoint, code := 3, epc := 0x1000#32, info := 0#32 } := ⟨rfl, rfl⟩

theorem witness_RegisterReadAfterWrite : (31#5 : Reg) ≠ 0#5 ∧ (0#5 : Reg) ≠ 31#5 ∧ (30#5 : Reg) ≠ 31#5 := by decide

theorem about_inv : (about 0x00732023#32).Inv := ⟨by decide, by decide, by decide⟩

/-- A store. -/
theorem witness_StepKeepsInvariant : (about 0x00732023#32).Inv ∧ ∃ t, step (about 0x00732023#32) = .next t :=
  ⟨about_inv, (next_of (p := fun _ => true) (by decide)).imp fun _ h => h.1⟩

/-- ECALL. -/
theorem witness_TrapLeavesStateOfBefore :
    (about 0x00000073#32).trap = none ∧ ∃ t r, step (about 0x00000073#32) = .next t ∧ t.trap = some r :=
  ⟨rfl, _, _, rfl, rfl⟩

/-- A misaligned `pc`, a hole at `pc`, an illegal word, and ECALL. -/
theorem witness_TrapCauseByInstruction :
    (∃ t r, step { hart 0#32 0#32 with pc := 0xFFFFFFFF#32 } = .next t ∧ t.trap = some r) ∧
    (∃ t r, step { strict 0#32 0#32 with pc := 0x3000#32 } = .next t ∧ t.trap = some r) ∧
    (∃ t r, step (about 0#32) = .next t ∧ t.trap = some r) ∧
    ∃ t r, step (about 0x00000073#32) = .next t ∧ t.trap = some r :=
  ⟨⟨_, _, rfl, rfl⟩, ⟨_, _, rfl, rfl⟩, ⟨_, _, rfl, rfl⟩, ⟨_, _, rfl, rfl⟩⟩

/-- One that retires at the last count, and one that raises. -/
theorem witness_InstretCountsRetired :
    let s := { about 0#32 with instretCtr := 0xFFFFFFFFFFFFFFFF#64 }
    s.trap = none ∧ (∃ t, exec (.addi 5#5 6#5 1#12) s = .next t ∧ t.trap = none) ∧
      ∃ t, exec .ebreak s = .next t ∧ t.trap ≠ none :=
  ⟨rfl, ⟨_, rfl, rfl⟩, ⟨_, rfl, by decide⟩⟩

/-- Two rounds of `JAL x0, #0`. -/
theorem witness_RunCountsItsInstructions :
    (about 0x0000006F#32).Inv ∧ ∃ t, Reaches 2 (about 0x0000006F#32) t ∧ t.trap = none := by
  refine ⟨⟨by decide, by decide, by decide⟩, ?_⟩
  obtain ⟨t, ht, hp⟩ := next_of (r := step (about 0x0000006F#32))
    (p := fun t => nextIs (step t) (fun u => u.trap == none)) (by decide)
  obtain ⟨u, hu, hq⟩ := next_of hp
  exact ⟨u, .after ht (.after hu (.here u)), by simpa using hq⟩

/-- At the last address of the space; and a branch that is not taken. -/
theorem witness_SequencingByFour :
    let s := { about 0#32 with pc := 0xFFFFFFFC#32 }
    s.trap = none ∧ (∃ t, exec (.sub 5#5 6#5 7#5) s = .next t ∧ t.trap = none) ∧ ¬ transfers s (.sub 5#5 6#5 7#5) ∧
      (∃ t, exec (.bne 6#5 6#5 2#13) s = .next t ∧ t.trap = none) ∧ ¬ transfers s (.bne 6#5 6#5 2#13) :=
  ⟨rfl, ⟨_, rfl, rfl⟩, id, ⟨_, rfl, rfl⟩, fun h => h rfl⟩

/-- A write of CSR 0x800 beside a read-only CSR; and an instruction that accesses no CSR. -/
theorem witness_PlatformAndCsrRightsKept :
    (decode ((about 0x00730313#32).fetchWordAt 0x1000#32) = .ok (.addi 6#5 6#5 7#12) ∧
      isCsrAccess (.addi 6#5 6#5 7#12) = false ∧ ∃ t, step (about 0x00730313#32) = .next t) ∧
    (∃ t, step ((extended 1#32).withFetchWord 32 0x800312F3) = .next t) ∧
    findCsr 0x801#12 ((extended 1#32).withFetchWord 32 0x800312F3).extCsrs =
      some { writable := false, behaviour := .storage, value := 0xBB#32 } :=
  ⟨⟨rfl, rfl, (next_of (p := fun _ => true) (by decide)).imp fun _ h => h.1⟩,
    (next_of (p := fun _ => true) (by decide)).imp fun _ h => h.1, rfl⟩

theorem witness_OnlyStoresWriteMemory :
    (∃ t, exec (.lw 5#5 6#5 0#12) (about 0#32) = .next t) ∧ isStore (.lw 5#5 6#5 0#12) = false ∧
    Instr.lw 5#5 6#5 0#12 ≠ .fenceI := ⟨⟨_, rfl⟩, rfl, by decide⟩

/-- Another register than the destination, a branch, and a trap that spares the destination. -/
theorem witness_OnlyDestinationChanges :
    (about 0#32).trap = none ∧ (∃ t, exec (.add 5#5 6#5 7#5) (about 0#32) = .next t) ∧
    destination (.add 5#5 6#5 7#5) ≠ some 6#5 ∧ destination (.beq 6#5 7#5 4#13) ≠ some 4#5 ∧
    ∃ t, exec (.jal 1#5 2#21) (about 0#32) = .next t ∧ t.trap ≠ none :=
  ⟨rfl, ⟨_, rfl⟩, by decide, by decide, ⟨_, rfl, by decide⟩⟩

theorem witness_CountersAreOnlySampled : ∃ t, exec (.csrrs 5#5 0xC80#12 0#5) (about 0#32) = .next t := ⟨_, rfl⟩

/-- A word stored over the top of the address space, read back whole, by its upper half, by its last byte. -/
theorem witness_StoredWordReadsBack :
    let s := hart 0xFFFFFFFE#32 0x11223344#32
    ∃ t, exec (.sw 7#5 6#5 0#12) s = .next t ∧ t.trap = none ∧
      (t.effAddr 6#5 0#12 = s.effAddr 6#5 0#12 + BitVec.ofNat 32 0 ∧
        ∃ u, exec (.lw 5#5 6#5 0#12) t = .next u ∧ u.trap = none) ∧
      (t.effAddr 6#5 2#12 = s.effAddr 6#5 0#12 + BitVec.ofNat 32 2 ∧
        ∃ u, exec (.lhu 5#5 6#5 2#12) t = .next u ∧ u.trap = none) ∧
      (t.effAddr 6#5 3#12 = s.effAddr 6#5 0#12 + BitVec.ofNat 32 3 ∧
        ∃ u, exec (.lbu 5#5 6#5 3#12) t = .next u ∧ u.trap = none) :=
  ⟨_, rfl, rfl, ⟨rfl, _, rfl, rfl⟩, ⟨rfl, _, rfl, rfl⟩, ⟨rfl, _, rfl, rfl⟩⟩

/-- The three cases of a load or store of `n` bytes: trapped as misaligned, in a hole by its last byte alone,
and complete just before the hole. -/
theorem access_cases :
    (RaisesMisaligned (strict 0#32 0#32) 0x2FFE#32 4 ∧ RaisesMisaligned (strict 0#32 0#32) 0xFFFFFFFF#32 2) ∧
    (¬ RaisesMisaligned (strict 0#32 0#32) 0x3000#32 4 ∧ ¬ AllValid (strict 0#32 0#32) .load 0x3000#32 4 ∧
      ¬ AllValid (strict 0#32 0#32) .store 0x3000#32 4) ∧
    (¬ RaisesMisaligned (strict 0#32 0#32) 0x3002#32 2 ∧ ¬ AllValid (strict 0#32 0#32) .load 0x3002#32 2 ∧
      ¬ AllValid (strict 0#32 0#32) .store 0x3002#32 2) ∧
    (¬ AllValid (strict 0#32 0#32) .load 0x3003#32 1 ∧ ¬ AllValid (strict 0#32 0#32) .store 0x3003#32 1) ∧
    (¬ RaisesMisaligned (strict 0#32 0#32) 0x2FFC#32 4 ∧ AllValid (strict 0#32 0#32) .load 0x2FFC#32 4 ∧
      AllValid (strict 0#32 0#32) .store 0x2FFC#32 4) := by
  unfold RaisesMisaligned AllValid; decide

theorem witness_LoadWord : RaisesMisaligned (strict 0#32 0#32) 0x2FFE#32 4 ∧
    ¬ AllValid (strict 0#32 0#32) .load 0x3000#32 4 ∧ AllValid (strict 0#32 0#32) .load 0x2FFC#32 4 :=
  ⟨access_cases.1.1, access_cases.2.1.2.1, access_cases.2.2.2.2.2.1⟩

theorem witness_LoadHalf : RaisesMisaligned (strict 0#32 0#32) 0xFFFFFFFF#32 2 ∧
    ¬ AllValid (strict 0#32 0#32) .load 0x3002#32 2 ∧ AllValid (strict 0#32 0#32) .load 0x3004#32 2 :=
  ⟨access_cases.1.2, access_cases.2.2.1.2.1, by unfold AllValid; decide⟩

theorem witness_LoadByte : ¬ RaisesMisaligned (strict 0#32 0#32) 0x3003#32 1 ∧
    ¬ AllValid (strict 0#32 0#32) .load 0x3003#32 1 ∧ AllValid (strict 0#32 0#32) .load 0x3004#32 1 :=
  ⟨by unfold RaisesMisaligned; decide, access_cases.2.2.2.1.1, by unfold AllValid; decide⟩

theorem witness_StoreWord : RaisesMisaligned (strict 0#32 0#32) 0x2FFE#32 4 ∧
    ¬ AllValid (strict 0#32 0#32) .store 0x3000#32 4 ∧ AllValid (strict 0#32 0#32) .store 0x2FFC#32 4 :=
  ⟨access_cases.1.1, access_cases.2.1.2.2, access_cases.2.2.2.2.2.2⟩

theorem witness_StoreHalf : RaisesMisaligned (strict 0#32 0#32) 0xFFFFFFFF#32 2 ∧
    ¬ AllValid (strict 0#32 0#32) .store 0x3002#32 2 ∧ AllValid (strict 0#32 0#32) .store 0x3004#32 2 :=
  ⟨access_cases.1.2, access_cases.2.2.1.2.2, by unfold AllValid; decide⟩

theorem witness_StoreByte : ¬ RaisesMisaligned (strict 0#32 0#32) 0x3003#32 1 ∧
    ¬ AllValid (strict 0#32 0#32) .store 0x3003#32 1 ∧ AllValid (strict 0#32 0#32) .store 0x3004#32 1 :=
  ⟨by unfold RaisesMisaligned; decide, access_cases.2.2.2.1.2, by unfold AllValid; decide⟩

/-- A writable CSR; a read-only one, a missing one and a counter. -/
theorem witness_CsrrwWrites : CsrMayWrite (extended 0#32) 0x800#12 ∧ ¬ CsrMayWrite (extended 0#32) 0x801#12 ∧
    ¬ CsrMayWrite (extended 0#32) 0xC82#12 ∧ CsrMayWrite (extended 0#32) 0x802#12 :=
  ⟨writable_csr, read_only_csr, counter_not_writable _, writable_custom_csr⟩

theorem witness_CsrrwiWrites : CsrMayWrite (extended 0#32) 0x800#12 ∧ ¬ CsrMayWrite (extended 0#32) 0x801#12 :=
  ⟨writable_csr, read_only_csr⟩

/-- A pure read of a counter, a read and write of a writable CSR, a write turned away, a missing CSR. -/
theorem witness_CsrrsCsrrcRead :
    (CsrExists (extended 0#32) 0xC82#12 ∧ ((0#5 : Reg) ≠ 0#5 → CsrMayWrite (extended 0#32) 0xC82#12)) ∧
    (CsrExists (extended 0#32) 0x800#12 ∧ ((31#5 : Reg) ≠ 0#5 → CsrMayWrite (extended 0#32) 0x800#12)) ∧
    ¬ (CsrExists (extended 0#32) 0x801#12 ∧ ((1#5 : Reg) ≠ 0#5 → CsrMayWrite (extended 0#32) 0x801#12)) ∧
    ¬ (CsrExists (extended 0#32) 0x900#12 ∧ ((0#5 : Reg) ≠ 0#5 → CsrMayWrite (extended 0#32) 0x900#12)) :=
  ⟨⟨.inl (by decide), fun h => absurd rfl h⟩, ⟨.inr ⟨_, rfl⟩, fun _ => writable_csr⟩,
    fun h => read_only_csr (h.2 (by decide)), fun h => missing_csr h.1⟩

theorem witness_CsrrsiCsrrciRead :
    (CsrExists (extended 0#32) 0xC00#12 ∧ ((0#5 : BitVec 5) ≠ 0#5 → CsrMayWrite (extended 0#32) 0xC00#12)) ∧
    (CsrExists (extended 0#32) 0x800#12 ∧ ((31#5 : BitVec 5) ≠ 0#5 → CsrMayWrite (extended 0#32) 0x800#12)) ∧
    ¬ (CsrExists (extended 0#32) 0xC82#12 ∧ ((1#5 : BitVec 5) ≠ 0#5 → CsrMayWrite (extended 0#32) 0xC82#12)) :=
  ⟨⟨.inl (by decide), fun h => absurd rfl h⟩, ⟨.inr ⟨_, rfl⟩, fun _ => writable_csr⟩,
    fun h => counter_not_writable _ (h.2 (by decide))⟩

/-- FENCE.I, then a store over a byte: a state whose old bytes are those of the one FENCE.I left, and which the
next step of the run reaches. -/
theorem witness_FenceISynchronises :
    ∃ t u, exec .fenceI (about 0x00732023#32) = .next t ∧ OldBytesFrom t t ∧
      Reaches 1 { t with pc := 0x1000#32 } u ∧ u.unsynced ≠ [] := by
  refine ⟨_, _, rfl, fun _ => rfl, .after rfl (.here _), by decide⟩

theorem witness_PseudoCsrAccess :
    (CsrExists (extended 0#32) 0x801#12 ∧ (False → CsrMayWrite (extended 0#32) 0x801#12)) ∧
    CsrMayWrite (extended 0#32) 0x800#12 ∧ ¬ CsrMayWrite (extended 0#32) 0xC82#12 ∧
    ¬ (CsrExists (extended 0#32) 0x900#12 ∧ (False → CsrMayWrite (extended 0#32) 0x900#12)) :=
  ⟨⟨.inr ⟨_, rfl⟩, False.elim⟩, writable_csr, counter_not_writable _, fun h => missing_csr h.1⟩

end Sys2Proof.Tests
end

section
/-! PROOFS. The three statements about the fetch exceptions, the retired-instruction counter and the sequencing of
`pc`: first the facts about the addresses of an access and about the frames, then what each shared operation does to
`pc`, instret and the trap record, then the statements. -/

namespace Sys2Proof.Machine

/-! ## Alignment and validity as the statements say them -/

theorem aligned4_iff (a : Word) : aligned4 a = true ↔ a.toNat % 4 = 0 := by
  simp [aligned4, BitVec.toNat_eq]

theorem mem_spanOf_iff {a : Word} {n b : Nat} :
    b ∈ spanOf a n ↔ ∃ k, k < n ∧ b = (a + BitVec.ofNat 32 k).toNat := by
  induction n generalizing a with
  | zero => simp [spanOf]
  | succ n ih =>
    have shift (k : Nat) : a + 1#32 + BitVec.ofNat 32 k = a + BitVec.ofNat 32 (k + 1) := by
      rw [BitVec.add_assoc, ← BitVec.ofNat_add, Nat.add_comm 1 k]
    rw [spanOf, List.mem_cons, ih, Nat.exists_lt_succ_left]
    simp [shift]

theorem State.validSpan_iff (s : State) (kind : AccessKind) (a : Word) (n : Nat) :
    s.validSpan kind a n = true ↔ AllValid s kind a n := by
  simp only [State.validSpan, AllValid, List.all_eq_true, mem_spanOf_iff]
  exact ⟨fun h k hk => h _ ⟨k, hk, rfl⟩, fun h _ ⟨k, hk, hb⟩ => hb ▸ h k hk⟩

theorem memValid_of_no_holes {p : Platform} (h : p.holes = []) (b : Nat) (kind : AccessKind) :
    memValid p b kind = true := by
  simp [memValid, h]

/-! ## Frames of the two ways an instruction ends -/

theorem trappedOnly_takeTrap (s : State) (c : Cause) (info : Word) :
    TrappedOnly s (s.takeTrap c info) c (c.code s.platform) info where
  record := rfl
  registers _ := rfl
  samePc := rfl
  notCounted := rfl
  bytes _ := rfl
  sameUnsynced := rfl
  sameCycle := rfl
  sameTime := rfl
  sameCsrs := rfl
  samePlatform := rfl

theorem wroteOnly_setReg_retire (s : State) (rd : Reg) (v next : Word) :
    WroteOnly s ((s.setReg rd v).retire next) rd v next where
  destination h := by simp [h]
  zeroRegister := State.reg_zero _
  otherRegisters _ h := State.reg_setReg_other s v h
  nextPc := rfl
  counted := rfl
  bytes _ := rfl
  sameUnsynced := rfl
  sameCycle := rfl
  sameTime := rfl
  sameCsrs := rfl
  samePlatform := rfl
  sameTrap := rfl

/-! ## The fetch exceptions (spec/10_state.md R25 step 1, spec/60_exceptions.md R282) -/

theorem State.fetch_misaligned {s : State} (h : s.pc.toNat % 4 ≠ 0) :
    s.fetch = .error .instructionAddressMisaligned := by
  have ha : aligned4 s.pc = false := Bool.eq_false_iff.2 (mt (aligned4_iff _).1 h)
  simp [State.fetch, ha]

theorem State.fetch_fault {s : State} (h : s.pc.toNat % 4 = 0) (hv : ¬ AllValid s .fetch s.pc 4) :
    s.fetch = .error .instructionAccessFault := by
  have ha : aligned4 s.pc = true := (aligned4_iff _).2 h
  have hs : s.validSpan .fetch s.pc 4 = false :=
    Bool.eq_false_iff.2 (mt (s.validSpan_iff _ _ _).1 hv)
  simp [State.fetch, ha, hs]

/-- A failed fetch is the whole step, and its trap is the step's only effect. -/
theorem step_traps_of_fetch_error {s : State} {c : Cause} (hr : s.trap = none) (hf : s.fetch = .error c) :
    ∃ t, step s = .next t ∧ TrappedOnly s t c (c.code s.platform) s.pc :=
  ⟨s.takeTrap c s.pc, by simp [step, hr, hf, State.raise], trappedOnly_takeTrap s c s.pc⟩

/-- Settles O8: the misaligned `pc` fails the fetch's first check, the missing byte its second, and a platform
without holes covers no byte. -/
theorem fetchRaises : Obligations.FetchRaises := by
  intro s hr
  refine ⟨fun hpc => ?_, fun hpc hv => ?_, fun hh k _ => ?_⟩
  · exact step_traps_of_fetch_error hr (State.fetch_misaligned hpc)
  · exact step_traps_of_fetch_error hr (State.fetch_fault hpc hv)
  · exact memValid_of_no_holes hh _ _

/-! ## How an instruction ends (spec/10_state.md R25 step 4, R26, R32) -/

/-- From `s` to `t` an instruction retired that leaves the sequence only if `jumps`. -/
structure Retired (s t : State) (jumps : Prop) : Prop where
  counted : t.instretCtr = s.instretCtr + 1#64
  sameTrap : t.trap = s.trap
  sequential : ¬ jumps → t.pc = s.pc + 4#32

/-- From `s` to `t` an instruction took a trap, or retired and left the sequence only if `jumps`. -/
def Ends (s t : State) (jumps : Prop) : Prop := (∃ c info, t = s.takeTrap c info) ∨ Retired s t jumps

section
variable {s t : State} {jumps : Prop}

theorem State.raise_ends {c : Cause} {info : Word} (h : s.raise c info = .next t) : Ends s t jumps :=
  .inl ⟨c, info, State.raise_next h⟩

/-- The end of an instruction that has by then changed neither `pc` nor instret nor the record. -/
theorem State.finish_ends {u : State} (hp : u.pc = s.pc) (hc : u.instretCtr = s.instretCtr) (ht : u.trap = s.trap)
    (h : u.finish = .next t) : Ends s t jumps := by
  cases State.finish_next h
  exact .inr ⟨by simp [hc], ht, fun _ => by simp [hp]⟩

theorem State.writeResult_ends {rd : Reg} {v : Word} (h : s.writeResult rd v = .next t) : Ends s t jumps :=
  State.finish_ends (u := s.setReg rd v) rfl rfl rfl h

theorem State.loadTo_ends {rd : Reg} {a : Word} {n : Nat} {v : Word} (h : s.loadTo rd a n v = .next t) :
    Ends s t jumps := by
  obtain ⟨-, rfl⟩ | ⟨c, -, rfl⟩ := State.loadTo_next h
  · exact .inr ⟨rfl, rfl, fun _ => rfl⟩
  · exact .inl ⟨c, a, rfl⟩

theorem State.storeFrom_ends {a : Word} {n : Nat} {v : Word} (h : s.storeFrom a n v = .next t) :
    Ends s t jumps := by
  obtain ⟨-, rfl⟩ | ⟨c, -, rfl⟩ := State.storeFrom_next h
  · exact .inr ⟨rfl, rfl, fun _ => rfl⟩
  · exact .inl ⟨c, a, rfl⟩

theorem State.csrAccess_ends {inst : Word} {rd : Reg} {c : CsrNum} {reads writes : Bool} {new : Word → Word}
    (h : s.csrAccess inst rd c reads writes new = .next t) : Ends s t jumps := by
  obtain ⟨-, rfl⟩ | ⟨-, rfl⟩ := State.csrAccess_next h
  · exact .inl ⟨_, inst, rfl⟩
  · cases writes <;> cases reads <;> exact .inr ⟨rfl, rfl, fun _ => rfl⟩

theorem State.goToLinking_ends {rd : Reg} {target : Word} (h : s.goToLinking rd target = .next t)
    (hj : jumps) : Ends s t jumps := by
  obtain ⟨-, rfl⟩ | ⟨-, rfl⟩ := State.goToLinking_next h
  · exact .inr ⟨rfl, rfl, fun hn => absurd hj hn⟩
  · exact .inl ⟨_, target, rfl⟩

theorem State.branchIf_ends {taken : Bool} {imm13 : BitVec 13} (h : s.branchIf taken imm13 = .next t)
    (hj : taken = true → jumps) : Ends s t jumps := by
  obtain ⟨-, rfl⟩ | ⟨ht, -, rfl⟩ | ⟨-, -, rfl⟩ := State.branchIf_next h
  · exact .inr ⟨rfl, rfl, fun _ => rfl⟩
  · exact .inr ⟨rfl, rfl, fun hn => absurd (hj ht) hn⟩
  · exact .inl ⟨_, _, rfl⟩

theorem exec_csrrw (s : State) (rd : Reg) (c : CsrNum) (rs1 : Reg) : exec (.csrrw rd c rs1) s =
    s.csrAccess (encode (.csrrw rd c rs1)) rd c (rd != 0#5) true (fun _ => s.reg rs1) := rfl

theorem exec_csrrs (s : State) (rd : Reg) (c : CsrNum) (rs1 : Reg) : exec (.csrrs rd c rs1) s =
    s.csrAccess (encode (.csrrs rd c rs1)) rd c true (rs1 != 0#5) (fun t => t ||| s.reg rs1) := rfl

theorem exec_csrrc (s : State) (rd : Reg) (c : CsrNum) (rs1 : Reg) : exec (.csrrc rd c rs1) s =
    s.csrAccess (encode (.csrrc rd c rs1)) rd c true (rs1 != 0#5) (fun t => t &&& ~~~(s.reg rs1)) := rfl

theorem exec_csrrwi (s : State) (rd : Reg) (c : CsrNum) (imm5 : BitVec 5) : exec (.csrrwi rd c imm5) s =
    s.csrAccess (encode (.csrrwi rd c imm5)) rd c (rd != 0#5) true (fun _ => zext5 imm5) := rfl

theorem exec_csrrsi (s : State) (rd : Reg) (c : CsrNum) (imm5 : BitVec 5) : exec (.csrrsi rd c imm5) s =
    s.csrAccess (encode (.csrrsi rd c imm5)) rd c true (imm5 != 0#5) (fun t => t ||| zext5 imm5) := rfl

theorem exec_csrrci (s : State) (rd : Reg) (c : CsrNum) (imm5 : BitVec 5) : exec (.csrrci rd c imm5) s =
    s.csrAccess (encode (.csrrci rd c imm5)) rd c true (imm5 != 0#5) (fun t => t &&& ~~~(zext5 imm5)) := rfl

/-- Every instruction ends in one of the two ways, and only those `transfers` names leave the sequence. -/
theorem exec_ends {i : Instr} (h : exec i s = .next t) : Ends s t (transfers s i) := by
  cases i with
  | addi | slti | sltiu | xori | ori | andi | slli | srli | srai => exact State.writeResult_ends h
  | add | sub | slt | sltu | and | or | xor | sll | srl | sra => exact State.writeResult_ends h
  | lui | auipc => exact State.writeResult_ends h
  | lw | lh | lhu | lb | lbu => exact State.loadTo_ends h
  | sw | sh | sb => exact State.storeFrom_ends h
  | csrrw | csrrs | csrrc | csrrwi | csrrsi | csrrci =>
    simp only [exec_csrrw, exec_csrrs, exec_csrrc, exec_csrrwi, exec_csrrsi, exec_csrrci] at h
    exact State.csrAccess_ends h
  | ecall | ebreak => exact State.raise_ends h
  | fence => exact State.finish_ends (u := s) rfl rfl rfl h
  | fenceI => exact State.finish_ends (u := s.syncFetch) rfl rfl rfl h
  | jal | jalr => exact State.goToLinking_ends h trivial
  | beq | bne => exact State.branchIf_ends h (by simp [transfers])
  | blt | bltu | bge | bgeu => exact State.branchIf_ends h (by simp [transfers, lessSigned, lessUnsigned])

end

/-! ## Reading the count (spec/10_state.md R29, R32) -/

theorem lowHalf_eq (c : BitVec 64) : lowHalf c = BitVec.ofNat 32 c.toNat := by
  simp [lowHalf, BitVec.toNat_eq]

theorem highHalf_eq (c : BitVec 64) : highHalf c = BitVec.ofNat 32 (c.toNat / 2 ^ 32) := by
  simp [highHalf, BitVec.toNat_eq, Nat.shiftRight_eq_div_pow]

/-- A CSR form that only reads a half of instret samples no other counter and has no side effect: all it does is
to write the value read. -/
theorem State.csrAccess_reads_instret (s : State) (inst : Word) (rd : Reg) {c : CsrNum} {v : Word}
    (new : Word → Word) (hc : c = csrInstret ∨ c = csrInstreth) (hv : s.csrValue c = some v) :
    s.csrAccess inst rd c true false new = .next ((s.setReg rd v).retire (s.pc + 4#32)) := by
  have hallowed : s.csrAllowed c false = true := by
    rcases hc with rfl | rfl <;> rfl
  have hread : s.csrReadTo rd c = s.setReg rd ((s.csrValue c).getD 0#32) := by
    rcases hc with rfl | rfl <;> rfl
  simp [State.csrAccess, hallowed, hread, hv, State.finish]

/-- An instruction that is such a form writes the half of the count of instructions retired before itself. -/
theorem writes_of_reads_instret {s : State} {i : Instr} {inst : Word} {rd : Reg} {c : CsrNum} {v : Word}
    {new : Word → Word} (hi : exec i s = s.csrAccess inst rd c true false new) (hc : c = csrInstret ∨ c = csrInstreth)
    (hv : s.csrValue c = some v) : Writes i s rd v :=
  ⟨_, hi.trans (s.csrAccess_reads_instret inst rd new hc hv), wroteOnly_setReg_retire s rd v _⟩

theorem State.csrValue_instret (s : State) : s.csrValue csrInstret = some (BitVec.ofNat 32 s.instretCtr.toNat) :=
  congrArg some (lowHalf_eq s.instretCtr)

theorem State.csrValue_instreth (s : State) :
    s.csrValue csrInstreth = some (BitVec.ofNat 32 (s.instretCtr.toNat / 2 ^ 32)) :=
  congrArg some (highHalf_eq s.instretCtr)

/-- Settles O20: a trap leaves the count, a retirement adds one, and the eight forms that only read a half of it
write it as it was. -/
theorem instretCountsRetired : Obligations.InstretCountsRetired := by
  refine ⟨rfl, fun i s t hr h => ?_, fun s rd => ?_⟩
  · obtain ⟨c, info, rfl⟩ | hret := exec_ends h
    · simp
    · rw [hret.counted, if_pos (hret.sameTrap.trans hr)]
  · have low {i : Instr} {inst : Word} {new : Word → Word}
        (hi : exec i s = s.csrAccess inst rd csrInstret true false new) :=
      writes_of_reads_instret hi (.inl rfl) s.csrValue_instret
    have high {i : Instr} {inst : Word} {new : Word → Word}
        (hi : exec i s = s.csrAccess inst rd csrInstreth true false new) :=
      writes_of_reads_instret hi (.inr rfl) s.csrValue_instreth
    exact ⟨low (exec_csrrs ..), low (exec_csrrc ..), low (exec_csrrsi ..), low (exec_csrrci ..),
      high (exec_csrrs ..), high (exec_csrrc ..), high (exec_csrrsi ..), high (exec_csrrci ..)⟩

/-- Settles O22: an instruction that raised nothing retired, and one that does not transfer control retired at
`pc + 4`. -/
theorem sequencingByFour : Obligations.SequencingByFour := by
  intro i s t _ h hn hseq
  obtain ⟨c, info, rfl⟩ | hret := exec_ends h
  · cases hn
  · rw [hret.sequential hseq, BitVec.toNat_add]
    rfl

end Sys2Proof.Machine
end

section
/-! PROOFS. The two statements about the decoder: first what the table says of a word, then the fields that a mask
fixes and which words each family of rows takes, then the statements. -/

namespace Sys2Proof

/-! ## The row a word matches (spec/30_encoding.md R91) -/

@[simp] theorem Row.accepts_iff (r : Row) (w : Word) : r.accepts w = true ↔ w &&& r.mask = r.pattern := by
  simp [Row.accepts]

/-- Two rows that accept one word agree on the bits that both fix. -/
theorem Row.agree_of_accepts {r q : Row} {w : Word} (hr : r.accepts w = true) (hq : q.accepts w = true) :
    r.pattern &&& q.mask = q.pattern &&& r.mask := by
  rw [← (r.accepts_iff w).1 hr, ← (q.accepts_iff w).1 hq, BitVec.and_assoc, BitVec.and_assoc,
    BitVec.and_comm r.mask]

/-- Any two rows of the table differ in a bit that both fix. -/
theorem rows_pairwise_disagree : rows.Pairwise (fun r q => r.pattern &&& q.mask ≠ q.pattern &&& r.mask) := by
  decide

theorem length_accepting_le_one (w : Word) : (rows.filter (fun r => r.accepts w)).length ≤ 1 := by
  have hdis := rows_pairwise_disagree.filter (fun r => r.accepts w)
  have hacc : ∀ r ∈ rows.filter (fun r => r.accepts w), r.accepts w = true := fun r hr => (List.mem_filter.1 hr).2
  generalize rows.filter (fun r => r.accepts w) = accepting at hdis hacc
  match accepting with
  | [] | [_] => simp
  | r :: q :: _ =>
    have hne := List.rel_of_pairwise_cons hdis (List.mem_cons_self ..)
    exact absurd (Row.agree_of_accepts (hacc r (by simp)) (hacc q (by simp))) hne

theorem find_of_accepts {r : Row} {w : Word} (hr : r ∈ rows) (hw : r.accepts w = true) :
    rows.find? (fun r => r.accepts w) = some r := by
  have hmem : r ∈ rows.filter (fun r => r.accepts w) := List.mem_filter.2 ⟨hr, hw⟩
  obtain ⟨q, hq⟩ := List.length_eq_one_iff.1
    (le_antisymm (length_accepting_le_one w) (List.length_pos_of_mem hmem))
  rw [hq, List.mem_singleton] at hmem
  rw [← List.head?_filter, hq, hmem, List.head?_singleton]

theorem decode_of_accepts {r : Row} {w : Word} (hr : r ∈ rows) (hw : w &&& r.mask = r.pattern) :
    decode w = .ok (r.build w) := by
  simp only [decode, find_of_accepts hr ((r.accepts_iff w).2 hw)]

/-- The word matches one of these rows. -/
def TakenBy (l : List Row) (w : Word) : Prop := ∃ r ∈ l, w &&& r.mask = r.pattern

theorem decode_eq_noRow_iff (w : Word) : decode w = .error (.noRow w) ↔ ¬ TakenBy rows w := by
  constructor
  · rintro hd ⟨r, hr, hw⟩
    rw [decode_of_accepts hr hw] at hd
    cases hd
  · intro h
    have hnone : rows.find? (fun r => r.accepts w) = none :=
      List.find?_eq_none.2 fun r hr hw => h ⟨r, hr, (r.accepts_iff w).1 hw⟩
    simp only [decode, hnone]

/-- Settles O1: two rows that accept one word would agree where both fix a bit, which no two rows do; so the
row found is the only one. -/
theorem decodeFollowsTheTable : Obligations.DecodeFollowsTheTable := fun w =>
  ⟨length_accepting_le_one w, fun _ => decode_of_accepts,
    fun h => (decode_eq_noRow_iff w).2 fun ⟨r, hr, hw⟩ => h r hr hw⟩

/-! ## The fields that a mask fixes -/

theorem and_eq_and_iff (w p m : Word) :
    w &&& m = p &&& m ↔ ∀ i, m.getLsbD i = true → w.getLsbD i = p.getLsbD i := by
  constructor
  · intro heq i hi
    simpa [hi] using congrArg (fun v : Word => v.getLsbD i) heq
  · intro hbits
    refine BitVec.eq_of_getLsbD_eq fun i _ => ?_
    cases hi : m.getLsbD i with
    | false => simp [hi]
    | true => simp [hi, hbits i hi]

theorem and_or_eq_iff (w p m m' : Word) :
    w &&& (m ||| m') = p &&& (m ||| m') ↔ w &&& m = p &&& m ∧ w &&& m' = p &&& m' := by
  simp [and_eq_and_iff, or_imp, forall_and]

/-- The mask of the `n` bits from bit `lo` up. -/
def fieldMask (lo n : Nat) : Word := (BitVec.allOnes n).setWidth 32 <<< lo

theorem getLsbD_fieldMask {lo n : Nat} (h : lo + n ≤ 32) (i : Nat) :
    (fieldMask lo n).getLsbD i = true ↔ lo ≤ i ∧ i < lo + n := by
  simp only [fieldMask, BitVec.getLsbD_shiftLeft, BitVec.getLsbD_setWidth, BitVec.getLsbD_allOnes,
    Bool.and_eq_true, Bool.not_eq_true', decide_eq_true_eq, decide_eq_false_iff_not]
  omega

theorem and_fieldMask_eq_iff {lo n : Nat} (h : lo + n ≤ 32) (w p : Word) :
    w &&& fieldMask lo n = p &&& fieldMask lo n ↔ w.extractLsb' lo n = p.extractLsb' lo n := by
  simp only [and_eq_and_iff, getLsbD_fieldMask h]
  constructor
  · intro hbits
    ext i hi
    simpa [hi] using hbits (lo + i) (by omega)
  · rintro heq i ⟨hlo, hhi⟩
    have hlt : i - lo < n := by omega
    simpa [hlt, Nat.add_sub_cancel' hlo] using congrArg (fun v : BitVec n => v.getLsbD (i - lo)) heq

/-- A pattern without bits outside its mask is met on the mask alone. -/
theorem and_eq_iff_and_eq_and {p m : Word} (hp : p &&& m = p) (w : Word) : w &&& m = p ↔ w &&& m = p &&& m := by
  rw [hp]

/-- `opcode`, `inst[6:0]` (spec/30_encoding.md R92). -/
abbrev opcodeBits (w : Word) : BitVec 7 := w.extractLsb' 0 7

/-- `function`, `inst[14:12]` (spec/30_encoding.md R93). -/
abbrev functionBits (w : Word) : BitVec 3 := w.extractLsb' 12 3

/-- The upper bits, `inst[31:25]` (spec/30_encoding.md R94). -/
abbrev upperBits (w : Word) : BitVec 7 := w.extractLsb' 25 7

section

variable {p : Word} (w : Word)

theorem and_opcodeMask_eq_iff (hp : p &&& 0x0000007F#32 = p) :
    w &&& 0x0000007F#32 = p ↔ opcodeBits w = p.extractLsb' 0 7 := by
  have hmask : 0x0000007F#32 = fieldMask 0 7 := by decide
  rw [and_eq_iff_and_eq_and hp, hmask]
  simp only [and_fieldMask_eq_iff, Nat.reduceAdd, Nat.reduceLeDiff]

theorem and_functionMask_eq_iff (hp : p &&& 0x0000707F#32 = p) :
    w &&& 0x0000707F#32 = p ↔ opcodeBits w = p.extractLsb' 0 7 ∧ functionBits w = p.extractLsb' 12 3 := by
  have hmask : 0x0000707F#32 = fieldMask 0 7 ||| fieldMask 12 3 := by decide
  rw [and_eq_iff_and_eq_and hp, hmask]
  simp only [and_or_eq_iff, and_fieldMask_eq_iff, Nat.reduceAdd, Nat.reduceLeDiff]

theorem and_upperMask_eq_iff (hp : p &&& 0xFE00707F#32 = p) :
    w &&& 0xFE00707F#32 = p ↔
      opcodeBits w = p.extractLsb' 0 7 ∧ functionBits w = p.extractLsb' 12 3 ∧ upperBits w = p.extractLsb' 25 7 := by
  have hmask : 0xFE00707F#32 = fieldMask 0 7 ||| (fieldMask 12 3 ||| fieldMask 25 7) := by decide
  rw [and_eq_iff_and_eq_and hp, hmask]
  simp only [and_or_eq_iff, and_fieldMask_eq_iff, Nat.reduceAdd, Nat.reduceLeDiff]

theorem and_fenceMask_eq_iff (hp : p &&& 0xF00FFFFF#32 = p) :
    w &&& 0xF00FFFFF#32 = p ↔
      opcodeBits w = p.extractLsb' 0 7 ∧ functionBits w = p.extractLsb' 12 3 ∧
        w.extractLsb' 28 4 = p.extractLsb' 28 4 ∧ rs1Of w = p.extractLsb' 15 5 ∧ rdOf w = p.extractLsb' 7 5 := by
  have hmask : 0xF00FFFFF#32 =
      fieldMask 0 7 ||| (fieldMask 12 3 ||| (fieldMask 28 4 ||| (fieldMask 15 5 ||| fieldMask 7 5))) := by decide
  rw [and_eq_iff_and_eq_and hp, hmask]
  simp only [and_or_eq_iff, and_fieldMask_eq_iff, Nat.reduceAdd, Nat.reduceLeDiff, rs1Of, rdOf]

/-- A mask that fixes every bit fixes every field of the I format (spec/30_encoding.md R81). -/
theorem and_wholeMask_eq_iff (p : Word) :
    w &&& 0xFFFFFFFF#32 = p ↔
      opcodeBits w = p.extractLsb' 0 7 ∧ functionBits w = p.extractLsb' 12 3 ∧
        immI w = p.extractLsb' 20 12 ∧ rs1Of w = p.extractLsb' 15 5 ∧ rdOf w = p.extractLsb' 7 5 := by
  have hmask : 0xFFFFFFFF#32 =
      fieldMask 0 7 ||| (fieldMask 12 3 ||| (fieldMask 20 12 ||| (fieldMask 15 5 ||| fieldMask 7 5))) := by decide
  have hp : p &&& 0xFFFFFFFF#32 = p := BitVec.and_allOnes
  rw [and_eq_iff_and_eq_and hp, hmask]
  simp only [and_or_eq_iff, and_fieldMask_eq_iff, Nat.reduceAdd, Nat.reduceLeDiff, immI, rs1Of, rdOf]

end

/-! ## The words each family of rows takes (spec/30_encoding.md R95) -/

section

variable (w : Word)

theorem takenBy_append (l l' : List Row) : TakenBy (l ++ l') w ↔ TakenBy l w ∨ TakenBy l' w := by
  simp [TakenBy, or_and_right, exists_or]

theorem function_cases (f : BitVec 3) :
    f = 0#3 ∨ f = 1#3 ∨ f = 2#3 ∨ f = 3#3 ∨ f = 4#3 ∨ f = 5#3 ∨ f = 6#3 ∨ f = 7#3 := by
  revert f; decide

theorem takenBy_rowsOpImm : TakenBy rowsOpImm w ↔
    opcodeBits w = 0x13#7 ∧ (functionBits w = 1#3 → upperBits w = 0#7) ∧
      (functionBits w = 5#3 → upperBits w = 0#7 ∨ upperBits w = 0x20#7) := by
  rcases function_cases (functionBits w) with h | h | h | h | h | h | h | h <;>
    simp [TakenBy, rowsOpImm, and_functionMask_eq_iff, and_upperMask_eq_iff, h, and_or_left]

theorem takenBy_rowsJalrLoads : TakenBy rowsJalrLoads w ↔
    (opcodeBits w = 0x67#7 ∧ functionBits w = 0#3) ∨
      (opcodeBits w = 0x03#7 ∧ functionBits w ∉ [3#3, 6#3, 7#3]) := by
  rcases function_cases (functionBits w) with h | h | h | h | h | h | h | h <;>
    simp [TakenBy, rowsJalrLoads, and_functionMask_eq_iff, h]

theorem takenBy_rowsSystem : TakenBy rowsSystem w ↔
    opcodeBits w = 0x73#7 ∧ (functionBits w = 0#3 → w = 0x00000073#32 ∨ w = 0x00100073#32) ∧
      functionBits w ≠ 4#3 := by
  by_cases hword : w = 0x00000073#32 ∨ w = 0x00100073#32
  · rcases hword with rfl | rfl <;> simp [TakenBy, rowsSystem, opcodeBits, functionBits]
  · have hmask : w &&& 0xFFFFFFFF#32 = w := BitVec.and_allOnes
    obtain ⟨hecall, hebreak⟩ := not_or.1 hword
    rcases function_cases (functionBits w) with h | h | h | h | h | h | h | h <;>
      simp [TakenBy, rowsSystem, and_functionMask_eq_iff, hmask, hecall, hebreak, h]

theorem takenBy_rowsUpperImm : TakenBy rowsUpperImm w ↔ opcodeBits w = 0x37#7 ∨ opcodeBits w = 0x17#7 := by
  simp [TakenBy, rowsUpperImm, and_opcodeMask_eq_iff]

theorem takenBy_rowsRegister : TakenBy rowsRegister w ↔
    opcodeBits w = 0x33#7 ∧ (upperBits w = 0#7 ∨ (upperBits w = 0x20#7 ∧ functionBits w ∈ [0#3, 5#3])) := by
  rcases function_cases (functionBits w) with h | h | h | h | h | h | h | h <;>
    simp [TakenBy, rowsRegister, and_upperMask_eq_iff, h, and_or_left]

theorem takenBy_rowsJal : TakenBy rowsJal w ↔ opcodeBits w = 0x6F#7 := by
  simp [TakenBy, rowsJal, and_opcodeMask_eq_iff]

theorem takenBy_rowsBranch : TakenBy rowsBranch w ↔ opcodeBits w = 0x63#7 ∧ functionBits w ∉ [2#3, 3#3] := by
  rcases function_cases (functionBits w) with h | h | h | h | h | h | h | h <;>
    simp [TakenBy, rowsBranch, and_functionMask_eq_iff, h]

theorem takenBy_rowsStore : TakenBy rowsStore w ↔ opcodeBits w = 0x23#7 ∧ functionBits w ∈ [0#3, 1#3, 2#3] := by
  rcases function_cases (functionBits w) with h | h | h | h | h | h | h | h <;>
    simp [TakenBy, rowsStore, and_functionMask_eq_iff, h]

theorem takenBy_rowsFence : TakenBy rowsFence w ↔
    opcodeBits w = 0x0F#7 ∧
      (functionBits w = 0#3 → w.extractLsb' 28 4 = 0#4 ∧ rs1Of w = 0#5 ∧ rdOf w = 0#5) ∧
      (functionBits w = 1#3 → immI w = 0#12 ∧ rs1Of w = 0#5 ∧ rdOf w = 0#5) ∧
      functionBits w ∈ [0#3, 1#3] := by
  rcases function_cases (functionBits w) with h | h | h | h | h | h | h | h <;>
    simp [TakenBy, rowsFence, and_fenceMask_eq_iff, and_wholeMask_eq_iff, h]

end

/-- The illegal words of spec/30_encoding.md R96 and R97 are those that no row takes: under each major opcode the
words its families take are the others. -/
theorem illegalWord_iff (w : Word) : Machine.IllegalWord w ↔ ¬ TakenBy rows w := by
  simp only [Machine.IllegalWord, rows, takenBy_append, takenBy_rowsOpImm, takenBy_rowsJalrLoads, takenBy_rowsSystem,
    takenBy_rowsUpperImm, takenBy_rowsRegister, takenBy_rowsJal, takenBy_rowsBranch, takenBy_rowsStore,
    takenBy_rowsFence, opcodeBits, functionBits, upperBits, immI, rs1Of, rdOf]
  by_cases hmajor : w.extractLsb' 0 7 ∈ Machine.majorOpcodes
  · have hcases := hmajor
    simp only [Machine.majorOpcodes, List.mem_cons, List.not_mem_nil, or_false] at hcases
    simp only [hmajor]
    rcases hcases with h | h | h | h | h | h | h | h | h | h | h <;> simp [h, imp_iff_not_or]
  · have hother := hmajor
    simp only [Machine.majorOpcodes, List.mem_cons, List.not_mem_nil, or_false, not_or] at hother
    simp [hmajor, hother]

end Sys2Proof

namespace Sys2Proof.Machine

theorem illegalWord_iff_decode (w : Word) : IllegalWord w ↔ decode w = .error (.noRow w) :=
  (illegalWord_iff w).trans (decode_eq_noRow_iff w).symm

/-- A decode that fails is the whole step, and its trap is the step's only effect. -/
theorem step_traps_of_decode_error {s : State} {w : Word} {e : Reject} (hr : s.trap = none) (hf : s.fetch = .ok w)
    (hd : decode w = .error e) : ∃ t, step s = .next t ∧ TrappedOnly s t .illegalInstruction 2 w :=
  ⟨s.takeTrap .illegalInstruction w, by simp [step, hr, hf, hd, State.raise],
    trappedOnly_takeTrap s .illegalInstruction w⟩

/-- Settles O5: the words R96 and R97 name are those no row takes, and a word no row takes fails at decode. -/
theorem illegalWordsTrap : Obligations.IllegalWordsTrap := fun w =>
  ⟨illegalWord_iff_decode w, fun _ hr hf hw => step_traps_of_decode_error hr hf ((illegalWord_iff_decode w).1 hw)⟩

end Sys2Proof.Machine
end

section
/-! PROOFS. The four statements about the register-immediate instructions: first what each of the nine writes, then
the values they write as the statements say them, then the statements. -/

namespace Sys2Proof.Machine

/-! ## What each instruction writes (spec/40_op_imm.md R120 to R128) -/

/-- An instruction that does no more than write its result retires with the frame `WroteOnly`. -/
theorem writes_of_writeResult {i : Instr} {s : State} {rd : Reg} {v : Word} (h : exec i s = s.writeResult rd v) :
    Writes i s rd v :=
  ⟨_, h, wroteOnly_setReg_retire s rd v _⟩

section
variable (s : State) (rd rs1 : Reg) (imm12 : BitVec 12) (imm5 : BitVec 5)

theorem exec_addi : exec (.addi rd rs1 imm12) s = s.writeResult rd (s.reg rs1 + sext12 imm12) := rfl

theorem exec_slti :
    exec (.slti rd rs1 imm12) s = s.writeResult rd (boolWord (lessSigned (s.reg rs1) (sext12 imm12))) := rfl

theorem exec_sltiu :
    exec (.sltiu rd rs1 imm12) s = s.writeResult rd (boolWord (lessUnsigned (s.reg rs1) (sext12 imm12))) := rfl

theorem exec_xori : exec (.xori rd rs1 imm12) s = s.writeResult rd (s.reg rs1 ^^^ sext12 imm12) := rfl

theorem exec_ori : exec (.ori rd rs1 imm12) s = s.writeResult rd (s.reg rs1 ||| sext12 imm12) := rfl

theorem exec_andi : exec (.andi rd rs1 imm12) s = s.writeResult rd (s.reg rs1 &&& sext12 imm12) := rfl

theorem exec_slli : exec (.slli rd rs1 imm5) s = s.writeResult rd (s.reg rs1 <<< (zext5 imm5).toNat) := rfl

theorem exec_srli : exec (.srli rd rs1 imm5) s = s.writeResult rd (s.reg rs1 >>> (zext5 imm5).toNat) := rfl

theorem exec_srai : exec (.srai rd rs1 imm5) s = s.writeResult rd ((s.reg rs1).sshiftRight (zext5 imm5).toNat) := rfl

end

/-! ## The immediates as numbers and bits (spec/30_encoding.md R81, R82, R90) -/

theorem sext12_eq_ofInt (imm12 : BitVec 12) : sext12 imm12 = BitVec.ofInt 32 imm12.toInt := rfl

theorem toInt_sext12 (imm12 : BitVec 12) : (sext12 imm12).toInt = imm12.toInt :=
  BitVec.toInt_signExtend_of_le (by decide)

/-- Bit 11 of the immediate stands for every bit above it. -/
theorem getLsbD_sext12 (imm12 : BitVec 12) {k : Nat} (hk : k < 32) :
    (sext12 imm12).getLsbD k = imm12.getLsbD (min k 11) := by
  rw [sext12, BitVec.getLsbD_signExtend, BitVec.msb_eq_getLsbD_last]
  by_cases hlow : k < 12
  · simp [hk, hlow, Nat.min_eq_left (Nat.le_of_lt_succ hlow)]
  · simp [hk, hlow, Nat.min_eq_right (by omega : 11 ≤ k)]

theorem toNat_zext5 (imm5 : BitVec 5) : (zext5 imm5).toNat = imm5.toNat :=
  BitVec.toNat_setWidth_of_le (by decide)

/-! ## The values as the statements say them (spec/00_scope.md R9) -/

theorem add_sext12 (a : Word) (imm12 : BitVec 12) : a + sext12 imm12 = BitVec.ofInt 32 (a.toInt + imm12.toInt) := by
  rw [BitVec.ofInt_add, BitVec.ofInt_toInt, sext12_eq_ofInt]

theorem boolWord_lessSigned (a b : Word) :
    boolWord (lessSigned a b) = if a.toInt < b.toInt then 1#32 else 0#32 := by
  simp [boolWord, lessSigned]

theorem boolWord_lessUnsigned (a b : Word) :
    boolWord (lessUnsigned a b) = if a.toNat < b.toNat then 1#32 else 0#32 := by
  simp [boolWord, lessUnsigned]

theorem shiftLeft_eq_ofNat_mul (a : Word) (n : Nat) : a <<< n = BitVec.ofNat 32 (a.toNat * 2 ^ n) := by
  apply BitVec.eq_of_toNat_eq
  rw [BitVec.toNat_shiftLeft, BitVec.toNat_ofNat, Nat.shiftLeft_eq]

theorem ushiftRight_eq_ofNat_div (a : Word) (n : Nat) : a >>> n = BitVec.ofNat 32 (a.toNat / 2 ^ n) := by
  rw [← Nat.shiftRight_eq_div_pow, ← BitVec.toNat_ushiftRight, BitVec.ofNat_toNat, BitVec.setWidth_eq]

/-- The arithmetic shift rounds toward minus infinity (R128). -/
theorem sshiftRight_eq_ofInt_fdiv (a : Word) (n : Nat) :
    a.sshiftRight n = BitVec.ofInt 32 (Int.fdiv a.toInt (2 ^ n)) := by
  rw [BitVec.sshiftRight, Int.shiftRight_eq_div_pow, Int.fdiv_eq_ediv_of_nonneg _ (by positivity)]
  norm_cast

/-! ## The statements -/

/-- Settles O29: adding the extended immediate as words is adding it as an integer, modulo 2^32. -/
theorem addiSums : Obligations.AddiSums := fun s rd rs1 imm12 =>
  ⟨rfl, writes_of_writeResult (by rw [exec_addi, add_sext12])⟩

/-- Settles O30: sign extension keeps the signed value, which SLTI compares, and is the word SLTIU compares. -/
theorem sltiSltiuCompare : Obligations.SltiSltiuCompare := fun s rd rs1 imm12 =>
  ⟨rfl, rfl, writes_of_writeResult (by rw [exec_slti, boolWord_lessSigned, toInt_sext12]),
    writes_of_writeResult (by rw [exec_sltiu, boolWord_lessUnsigned, sext12_eq_ofInt])⟩

/-- Settles O31: the operators act on each bit alone, and every bit of the extended immediate is known. -/
theorem logicImmediatesBitwise : Obligations.LogicImmediatesBitwise := fun s rd rs1 imm12 =>
  ⟨rfl, rfl, rfl,
    ⟨_, writes_of_writeResult (exec_xori s rd rs1 imm12), fun _ hk => by rw [BitVec.getLsbD_xor, getLsbD_sext12 _ hk]⟩,
    ⟨_, writes_of_writeResult (exec_ori s rd rs1 imm12), fun _ hk => by rw [BitVec.getLsbD_or, getLsbD_sext12 _ hk]⟩,
    ⟨_, writes_of_writeResult (exec_andi s rd rs1 imm12), fun _ hk => by rw [BitVec.getLsbD_and, getLsbD_sext12 _ hk]⟩⟩

/-- Settles O32: the literal is the amount, and each shift by it is the product or quotient by its power of two. -/
theorem shiftImmediates : Obligations.ShiftImmediates := fun s rd rs1 imm5 =>
  ⟨rfl, rfl, rfl,
    writes_of_writeResult (by rw [exec_slli, toNat_zext5, shiftLeft_eq_ofNat_mul]),
    writes_of_writeResult (by rw [exec_srli, toNat_zext5, ushiftRight_eq_ofNat_div]),
    writes_of_writeResult (by rw [exec_srai, toNat_zext5, sshiftRight_eq_ofInt_fdiv])⟩

end Sys2Proof.Machine
end

section
/-! PROOFS. The four statements about JALR and the loads: first what the shared access check, the load and the linking
jump do, then the bytes and the target as the statements say them, then the statements. -/

namespace Sys2Proof.Machine

/-! ## The exception of a data access (spec/20_memory.md R53 to R55, spec/60_exceptions.md R292) -/

theorem State.misalignedRaises_iff (s : State) : s.misalignedRaises = true ↔
    s.platform.misaligned = .trap ∨ (s.platform.misaligned = .either ∧ Config.misalignedTraps s.draws = true) := by
  unfold State.misalignedRaises
  cases s.platform.misaligned <;> simp

theorem raisesMisaligned_iff (s : State) (a : Word) (n : Nat) :
    RaisesMisaligned s a n ↔ (misaligned a n && s.misalignedRaises) = true := by
  rw [RaisesMisaligned, ← s.misalignedRaises_iff, Bool.and_eq_true, misaligned, bne_iff_ne]

/-- Every address is a multiple of 1. -/
theorem not_raisesMisaligned_one (s : State) (a : Word) : ¬ RaisesMisaligned s a 1 :=
  fun h => h.1 (Nat.mod_one _)

section
variable {s : State} {kind : AccessKind} {m f : Cause} {a : Word} {n : Nat}

theorem State.accessCause_misaligned (h : RaisesMisaligned s a n) : s.accessCause kind m f a n = some m :=
  if_pos ((raisesMisaligned_iff s a n).1 h)

/-- An access that is not trapped as misaligned raises by the validity of its bytes alone. -/
theorem State.accessCause_not_misaligned (h : ¬ RaisesMisaligned s a n) :
    s.accessCause kind m f a n = if s.validSpan kind a n then none else some f :=
  if_neg (mt (raisesMisaligned_iff s a n).2 h)

theorem State.accessCause_fault (h : ¬ RaisesMisaligned s a n) (hv : ¬ AllValid s kind a n) :
    s.accessCause kind m f a n = some f :=
  (State.accessCause_not_misaligned h).trans (if_neg (mt (s.validSpan_iff kind a n).1 hv))

theorem State.accessCause_valid (h : ¬ RaisesMisaligned s a n) (hv : AllValid s kind a n) :
    s.accessCause kind m f a n = none :=
  (State.accessCause_not_misaligned h).trans (if_pos ((s.validSpan_iff kind a n).2 hv))

end

/-! ## What a load and a linking jump do (spec/41_jalr_loads.md R140, R141, spec/60_exceptions.md R281) -/

section
variable {i : Instr} {s : State} {rd : Reg} {a : Word} {n : Nat} {v : Word}

theorem traps_of_raise {c : Cause} {info : Word} (h : exec i s = s.raise c info) :
    Traps i s c (c.code s.platform) info :=
  ⟨_, h, trappedOnly_takeTrap s c info⟩

/-- An instruction that does no more than the common part of the loads meets `Loads`. -/
theorem loads_of_loadTo (h : exec i s = s.loadTo rd a n v) : Loads i s rd a n v := by
  unfold State.loadTo at h
  refine ⟨fun hm => ?_, fun hm hv => ?_, fun hm hv => ?_⟩
  · rw [State.accessCause_misaligned hm] at h
    exact traps_of_raise h
  · rw [State.accessCause_fault hm hv] at h
    exact traps_of_raise h
  · rw [State.accessCause_valid hm hv] at h
    exact writes_of_writeResult h

end

theorem State.goToLinking_transferred (s : State) (rd : Reg) (target : Word) :
    ∃ t, s.goToLinking rd target = .next t ∧ Transferred s t rd (s.pc + 4#32) target := by
  by_cases h : target.toNat % 4 = 0
  · have ha : aligned4 target = true := (aligned4_iff target).2 h
    refine ⟨_, if_pos ha, ?_⟩
    rw [Transferred, if_pos h]
    exact wroteOnly_setReg_retire s rd _ target
  · have ha : ¬ aligned4 target = true := mt (aligned4_iff target).1 h
    refine ⟨_, if_neg ha, ?_⟩
    rw [Transferred, if_neg h]
    exact trappedOnly_takeTrap s _ target

section
variable (s : State) (rd rs1 : Reg) (imm12 : BitVec 12)

theorem exec_jalr : exec (.jalr rd rs1 imm12) s =
    s.goToLinking rd ((s.reg rs1 + sext12 imm12) &&& 0xFFFFFFFE#32) := rfl

theorem exec_lw : exec (.lw rd rs1 imm12) s =
    s.loadTo rd (s.effAddr rs1 imm12) 4 (s.wordAt (s.effAddr rs1 imm12)) := rfl

theorem exec_lh : exec (.lh rd rs1 imm12) s =
    s.loadTo rd (s.effAddr rs1 imm12) 2 (sextHalf (s.halfAt (s.effAddr rs1 imm12))) := rfl

theorem exec_lhu : exec (.lhu rd rs1 imm12) s =
    s.loadTo rd (s.effAddr rs1 imm12) 2 (zextHalf (s.halfAt (s.effAddr rs1 imm12))) := rfl

theorem exec_lb : exec (.lb rd rs1 imm12) s =
    s.loadTo rd (s.effAddr rs1 imm12) 1 (sextByte (s.byteAt (s.effAddr rs1 imm12))) := rfl

theorem exec_lbu : exec (.lbu rd rs1 imm12) s =
    s.loadTo rd (s.effAddr rs1 imm12) 1 (zextByte (s.byteAt (s.effAddr rs1 imm12))) := rfl

end

/-! ## The bytes and the target as numbers (spec/20_memory.md R50, spec/41_jalr_loads.md R140 to R146) -/

theorem toNat_append_byte {w : Nat} (high : BitVec w) (low : Byte) :
    (high ++ low).toNat = low.toNat + 256 * high.toNat := by
  rw [BitVec.toNat_append, ← Nat.shiftLeft_add_eq_or_of_lt low.isLt, Nat.shiftLeft_eq]
  omega

theorem State.toNat_halfAt (s : State) (a : Word) : (s.halfAt a).toNat = bytesValue s a 2 := by
  simp [State.halfAt, leHalf, toNat_append_byte, bytesValue]

theorem State.toNat_wordAt (s : State) (a : Word) : (s.wordAt a).toNat = bytesValue s a 4 := by
  simp [State.wordAt, leWord, toNat_append_byte, bytesValue, BitVec.add_assoc]

theorem State.halfAt_eq (s : State) (a : Word) : s.halfAt a = BitVec.ofNat 16 (bytesValue s a 2) := by
  rw [← s.toNat_halfAt, BitVec.ofNat_toNat, BitVec.setWidth_eq]

theorem State.wordAt_eq (s : State) (a : Word) : s.wordAt a = BitVec.ofNat 32 (bytesValue s a 4) := by
  rw [← s.toNat_wordAt, BitVec.ofNat_toNat, BitVec.setWidth_eq]

theorem sextHalf_eq_ofInt (h : BitVec 16) : sextHalf h = BitVec.ofInt 32 h.toInt := rfl

theorem zextHalf_eq_ofNat (h : BitVec 16) : zextHalf h = BitVec.ofNat 32 h.toNat := (BitVec.ofNat_toNat 32 h).symm

theorem sextByte_eq_ofInt (b : Byte) : sextByte b = BitVec.ofInt 32 b.toInt := rfl

theorem zextByte_eq_ofNat (b : Byte) : zextByte b = BitVec.ofNat 32 b.toNat := (BitVec.ofNat_toNat 32 b).symm

/-- Clearing bit 0 is a shift right and back, which rounds down to an even number. -/
theorem and_evenMask (a : Word) : a &&& 0xFFFFFFFE#32 = BitVec.ofNat 32 (2 * (a.toNat / 2)) :=
  calc a &&& 0xFFFFFFFE#32
    _ = a &&& BitVec.allOnes 32 <<< 1 := rfl
    _ = a >>> 1 <<< 1 := BitVec.shiftLeft_ushiftRight.symm
    _ = BitVec.ofNat 32 (2 * (a.toNat / 2)) := by
      rw [shiftLeft_eq_ofNat_mul, BitVec.toNat_ushiftRight, Nat.shiftRight_eq_div_pow, Nat.mul_comm, pow_one]

/-! ## The statements -/

/-- Settles O38: the target is the sum rounded down to an even number, and its two low bits decide between the link
and the exception. -/
theorem jalrJumpsAndLinks : Obligations.JalrJumpsAndLinks := by
  refine fun s rd rs1 imm12 => ⟨rfl, ?_⟩
  rw [exec_jalr, and_evenMask, add_sext12]
  exact s.goToLinking_transferred rd _

/-- Settles O40: LW is the common load of 4 bytes, whose value is the word they append to. -/
theorem loadWord : Obligations.LoadWord := fun s rd rs1 imm12 =>
  ⟨rfl, loads_of_loadTo (by rw [exec_lw, s.wordAt_eq])⟩

/-- Settles O41: LH and LHU are the common load of 2 bytes and differ in how they extend the halfword. -/
theorem loadHalf : Obligations.LoadHalf := fun s rd rs1 imm12 =>
  ⟨rfl, rfl, loads_of_loadTo (by rw [exec_lh, sextHalf_eq_ofInt, s.halfAt_eq]),
    loads_of_loadTo (by rw [exec_lhu, zextHalf_eq_ofNat, s.toNat_halfAt])⟩

/-- Settles O42: LB and LBU are the common load of 1 byte, and every address is a multiple of 1. -/
theorem loadByte : Obligations.LoadByte := fun s rd rs1 imm12 =>
  ⟨rfl, rfl, not_raisesMisaligned_one s _, loads_of_loadTo (by rw [exec_lb, sextByte_eq_ofInt]),
    loads_of_loadTo (by rw [exec_lbu, zextByte_eq_ofNat])⟩

end Sys2Proof.Machine
end

section
/-! PROOFS. The statement about ECALL and EBREAK: each is the raise of its one exception, whatever the state. -/

namespace Sys2Proof.Machine

/-! ## What each instruction raises (spec/42_system.md R168, R169) -/

theorem exec_ecall (s : State) : exec .ecall s = s.raise .environmentCall 0#32 := rfl

theorem exec_ebreak (s : State) : exec .ebreak s = s.raise .breakpoint s.pc := rfl

/-! ## The codes of the two exceptions (spec/60_exceptions.md R280) -/

@[simp] theorem Cause.code_environmentCall (p : Platform) : Cause.environmentCall.code p = p.ecallCause := rfl

@[simp] theorem Cause.code_breakpoint (p : Platform) : Cause.breakpoint.code p = 3 := rfl

/-! ## The statement -/

/-- Settles O53: each of the two is nothing but a raise, and a raise is a trap with the code of its cause; only the
code of EnvironmentCall is the platform's. -/
theorem ecallEbreakTrap : Obligations.EcallEbreakTrap := by
  refine fun s => ⟨rfl, rfl, ?ecall, ?ebreak⟩
  case ecall => simpa using traps_of_raise (exec_ecall s)
  case ebreak => simpa using traps_of_raise (exec_ebreak s)

end Sys2Proof.Machine
end

section
/-! PROOFS. The statement about LUI and AUIPC: what each writes, the upper word as a number, then the statement. -/

namespace Sys2Proof.Machine

/-! ## What each instruction writes (spec/43_upper_imm.md R180, R181) -/

theorem exec_lui (rd : Reg) (imm20 : BitVec 20) (s : State) :
    exec (.lui rd imm20) s = s.writeResult rd (upper20 imm20) := rfl

theorem exec_auipc (rd : Reg) (imm20 : BitVec 20) (s : State) :
    exec (.auipc rd imm20) s = s.writeResult rd (s.pc + upper20 imm20) := rfl

/-! ## The upper word as a number (spec/43_upper_imm.md R180) -/

theorem toNat_upper20 (imm20 : BitVec 20) : (upper20 imm20).toNat = imm20.toNat * 2 ^ 12 := by
  rw [upper20, BitVec.toNat_append, BitVec.toNat_ofNat, Nat.zero_mod, Nat.or_zero, Nat.shiftLeft_eq]

/-! ## The values as the statement says them (spec/00_scope.md R9) -/

theorem upper20_eq_ofNat (imm20 : BitVec 20) : upper20 imm20 = BitVec.ofNat 32 (imm20.toNat * 2 ^ 12) := by
  rw [← toNat_upper20, BitVec.ofNat_toNat, BitVec.setWidth_eq]

theorem add_upper20 (a : Word) (imm20 : BitVec 20) :
    a + upper20 imm20 = BitVec.ofNat 32 (a.toNat + imm20.toNat * 2 ^ 12) := by
  rw [BitVec.add_def, toNat_upper20]

/-! ## The statement -/

/-- Settles O37: the zeros appended below multiply the immediate by 2^12, and adding that as words to the `pc` the
AUIPC runs at is adding it as a number, modulo 2^32. -/
theorem luiAuipc : Obligations.LuiAuipc := by
  refine fun s rd imm20 => ⟨rfl, rfl, ?lui, ?auipc⟩
  case lui => exact writes_of_writeResult (by rw [exec_lui, upper20_eq_ofNat])
  case auipc => exact writes_of_writeResult (by rw [exec_auipc, add_upper20])

end Sys2Proof.Machine
end

section
/-! PROOFS. The four statements about the register-register instructions: what each of the ten writes, then the
difference and the shift amount as the statements say them, then the statements. -/

namespace Sys2Proof.Machine

/-! ## What each instruction writes (spec/44_register.md R190 to R199) -/

section
variable (s : State) (rd rs1 rs2 : Reg)

theorem exec_add : exec (.add rd rs1 rs2) s = s.writeResult rd (s.reg rs1 + s.reg rs2) := rfl

theorem exec_sub : exec (.sub rd rs1 rs2) s = s.writeResult rd (s.reg rs1 - s.reg rs2) := rfl

theorem exec_slt :
    exec (.slt rd rs1 rs2) s = s.writeResult rd (boolWord (lessSigned (s.reg rs1) (s.reg rs2))) := rfl

theorem exec_sltu :
    exec (.sltu rd rs1 rs2) s = s.writeResult rd (boolWord (lessUnsigned (s.reg rs1) (s.reg rs2))) := rfl

theorem exec_and : exec (.and rd rs1 rs2) s = s.writeResult rd (s.reg rs1 &&& s.reg rs2) := rfl

theorem exec_or : exec (.or rd rs1 rs2) s = s.writeResult rd (s.reg rs1 ||| s.reg rs2) := rfl

theorem exec_xor : exec (.xor rd rs1 rs2) s = s.writeResult rd (s.reg rs1 ^^^ s.reg rs2) := rfl

theorem exec_sll : exec (.sll rd rs1 rs2) s = s.writeResult rd (s.reg rs1 <<< shiftAmount (s.reg rs2)) := rfl

theorem exec_srl : exec (.srl rd rs1 rs2) s = s.writeResult rd (s.reg rs1 >>> shiftAmount (s.reg rs2)) := rfl

theorem exec_sra :
    exec (.sra rd rs1 rs2) s = s.writeResult rd ((s.reg rs1).sshiftRight (shiftAmount (s.reg rs2))) := rfl

end

/-! ## The difference and the shift amount as the statements say them (spec/00_scope.md R9) -/

theorem sub_eq_ofInt (a b : Word) : a - b = BitVec.ofInt 32 (a.toInt - b.toInt) :=
  BitVec.eq_of_toInt_eq (BitVec.toInt_sub.trans (BitVec.toInt_ofInt _).symm)

/-- Keeping bits 4:0 is the remainder by 2^5, so a shift by 32 is a shift by 0 (R197). -/
theorem shiftAmount_eq_mod (v : Word) : shiftAmount v = v.toNat % 32 :=
  calc (v &&& 0x1F#32).toNat
    _ = v.toNat &&& (2 ^ 5 - 1) := BitVec.toNat_and v _
    _ = v.toNat % 2 ^ 5 := Nat.and_two_pow_sub_one_eq_mod _ 5

/-! ## The statements -/

/-- Settles O33: addition and subtraction of words are those of the numbers, modulo 2^32. -/
theorem addSub : Obligations.AddSub := fun s rd rs1 rs2 =>
  ⟨rfl, rfl, writes_of_writeResult (by rw [exec_add, BitVec.add_def]),
    writes_of_writeResult (by rw [exec_sub, sub_eq_ofInt])⟩

/-- Settles O34: both compare the registers' own values and no difference, so the comparison is exact. -/
theorem sltSltuCompare : Obligations.SltSltuCompare := fun s rd rs1 rs2 =>
  ⟨rfl, rfl, writes_of_writeResult (by rw [exec_slt, boolWord_lessSigned]),
    writes_of_writeResult (by rw [exec_sltu, boolWord_lessUnsigned])⟩

/-- Settles O35: the operators act on each bit alone. -/
theorem logicRegistersBitwise : Obligations.LogicRegistersBitwise := fun s rd rs1 rs2 =>
  ⟨rfl, rfl, rfl,
    ⟨_, writes_of_writeResult (exec_and s rd rs1 rs2), fun _ _ => BitVec.getLsbD_and⟩,
    ⟨_, writes_of_writeResult (exec_or s rd rs1 rs2), fun _ _ => BitVec.getLsbD_or⟩,
    ⟨_, writes_of_writeResult (exec_xor s rd rs1 rs2), fun _ _ => BitVec.getLsbD_xor⟩⟩

/-- Settles O36: the amount is a remainder by 32, and each shift by it is the product or quotient by its power of
two. -/
theorem shiftRegisters : Obligations.ShiftRegisters := fun s rd rs1 rs2 =>
  ⟨rfl, rfl, rfl,
    writes_of_writeResult (by rw [exec_sll, shiftAmount_eq_mod, shiftLeft_eq_ofNat_mul]),
    writes_of_writeResult (by rw [exec_srl, shiftAmount_eq_mod, ushiftRight_eq_ofNat_div]),
    writes_of_writeResult (by rw [exec_sra, shiftAmount_eq_mod, sshiftRight_eq_ofInt_fdiv])⟩

end Sys2Proof.Machine
end

section
/-! PROOFS. The statement about JAL: the linking jump it is, its target as a number, then the statement. -/

namespace Sys2Proof.Machine

/-! ## What the instruction does (spec/45_jal.md R210) -/

theorem exec_jal (s : State) (rd : Reg) (imm21 : BitVec 21) :
    exec (.jal rd imm21) s = s.goToLinking rd (s.pc + sext21 imm21) := rfl

/-! ## The target as a number (spec/45_jal.md R210, spec/00_scope.md R9) -/

theorem sext21_eq_ofInt (imm21 : BitVec 21) : sext21 imm21 = BitVec.ofInt 32 imm21.toInt := rfl

theorem add_sext21 (a : Word) (imm21 : BitVec 21) : a + sext21 imm21 = BitVec.ofInt 32 (a.toInt + imm21.toInt) := by
  rw [BitVec.ofInt_add, BitVec.ofInt_toInt, sext21_eq_ofInt]

/-! ## The statement -/

/-- Settles O39: adding the sign-extended offset to the `pc` as words is adding it as an integer, modulo 2^32, and the
two low bits of that target decide between the link and the exception. -/
theorem jalJumpsAndLinks : Obligations.JalJumpsAndLinks := by
  refine fun s rd imm21 => ⟨rfl, ?_⟩
  rw [exec_jal, add_sext21]
  exact s.goToLinking_transferred rd _

end Sys2Proof.Machine
end

section
/-! PROOFS. The three statements about the conditional branches: what the shared branch does, what each of the six
decides, the comparisons that are the negation of another's, then the statements. -/

namespace Sys2Proof.Machine

/-! ## What the shared branch does (spec/46_branch.md R215) -/

theorem sext13_eq_ofInt (imm13 : BitVec 13) : sext13 imm13 = BitVec.ofInt 32 imm13.toInt := rfl

theorem add_sext13 (a : Word) (imm13 : BitVec 13) : a + sext13 imm13 = BitVec.ofInt 32 (a.toInt + imm13.toInt) := by
  rw [BitVec.ofInt_add, BitVec.ofInt_toInt, sext13_eq_ofInt]

/-- Writing `x0` changes no register, so moving on alone is the frame of such a write (spec/10_state.md R21). -/
theorem movedOnly_retire (s : State) (next : Word) : MovedOnly s (s.retire next) next :=
  wroteOnly_setReg_retire s 0#5 0#32 next

theorem State.goTo_transferred (s : State) (target : Word) :
    ∃ t, s.goTo target = .next t ∧ Transferred s t 0#5 0#32 target := by
  simp only [State.goTo, Transferred, aligned4_iff]
  split
  · exact ⟨_, rfl, movedOnly_retire s target⟩
  · exact ⟨_, rfl, trappedOnly_takeTrap s _ target⟩

theorem State.branchIf_branched (s : State) (taken : Bool) (imm13 : BitVec 13) :
    ∃ t, s.branchIf taken imm13 = .next t ∧ Branched s t taken imm13 := by
  cases taken with
  | true =>
    simp only [State.branchIf, Branched, if_true, add_sext13]
    exact s.goTo_transferred _
  | false => exact ⟨_, rfl, movedOnly_retire s _⟩

/-- An instruction that does no more than the common part of the branches has its outcome. -/
theorem branches_of_branchIf {i : Instr} {s : State} {taken : Bool} {imm13 : BitVec 13}
    (h : exec i s = s.branchIf taken imm13) : ∃ t, exec i s = .next t ∧ Branched s t taken imm13 :=
  h ▸ s.branchIf_branched taken imm13

/-! ## What each instruction decides (spec/46_branch.md R216 to R221) -/

section
variable (s : State) (rs1 rs2 : Reg) (imm13 : BitVec 13)

theorem exec_beq : exec (.beq rs1 rs2 imm13) s = s.branchIf (s.reg rs1 == s.reg rs2) imm13 := rfl

theorem exec_bne : exec (.bne rs1 rs2 imm13) s = s.branchIf (s.reg rs1 != s.reg rs2) imm13 := rfl

theorem exec_blt : exec (.blt rs1 rs2 imm13) s = s.branchIf (lessSigned (s.reg rs1) (s.reg rs2)) imm13 := rfl

theorem exec_bltu : exec (.bltu rs1 rs2 imm13) s = s.branchIf (lessUnsigned (s.reg rs1) (s.reg rs2)) imm13 := rfl

theorem exec_bge : exec (.bge rs1 rs2 imm13) s = s.branchIf (!lessSigned (s.reg rs1) (s.reg rs2)) imm13 := rfl

theorem exec_bgeu : exec (.bgeu rs1 rs2 imm13) s = s.branchIf (!lessUnsigned (s.reg rs1) (s.reg rs2)) imm13 := rfl

end

/-! ## The conditions as the statements say them (spec/00_scope.md R9, spec/46_branch.md R222) -/

theorem bne_eq_decide_ne (a b : Word) : (a != b) = decide (a ≠ b) := decide_not.symm

theorem not_lessSigned_eq_decide_ge (a b : Word) : (!lessSigned a b) = decide (a.toInt ≥ b.toInt) := by
  rw [lessSigned, ← decide_not, decide_eq_decide, Int.not_lt]

theorem not_lessUnsigned_eq_decide_ge (a b : Word) : (!lessUnsigned a b) = decide (a.toNat ≥ b.toNat) := by
  rw [lessUnsigned, ← decide_not, decide_eq_decide, Nat.not_lt]

/-! ## The statements -/

/-- Settles O46: the two conditions are the equality of the whole words and its negation. -/
theorem branchEqual : Obligations.BranchEqual := fun s rs1 rs2 imm13 =>
  ⟨rfl, rfl, branches_of_branchIf (exec_beq s rs1 rs2 imm13),
    branches_of_branchIf (by rw [exec_bne, bne_eq_decide_ne])⟩

/-- Settles O47: both compare the registers' own signed values and no difference, and BGE negates what BLT finds. -/
theorem branchSigned : Obligations.BranchSigned := fun s rs1 rs2 imm13 =>
  ⟨rfl, rfl, branches_of_branchIf (by rw [exec_blt, lessSigned]),
    branches_of_branchIf (by rw [exec_bge, not_lessSigned_eq_decide_ge])⟩

/-- Settles O48: both compare the registers' own unsigned values, and BGEU negates what BLTU finds. -/
theorem branchUnsigned : Obligations.BranchUnsigned := fun s rs1 rs2 imm13 =>
  ⟨rfl, rfl, branches_of_branchIf (by rw [exec_bltu, lessUnsigned]),
    branches_of_branchIf (by rw [exec_bgeu, not_lessUnsigned_eq_decide_ge])⟩

end Sys2Proof.Machine
end

section
/-! PROOFS. The three statements about the stores: which byte a store puts at each of its addresses and which addresses
it marks, then what the common part of the stores does, then the statements. -/

namespace Sys2Proof.Machine

/-! ## The addresses of an access (spec/20_memory.md R50) -/

theorem add_one_add_ofNat (a : Word) (k : Nat) : a + 1#32 + BitVec.ofNat 32 k = a + BitVec.ofNat 32 (k + 1) := by
  rw [BitVec.add_assoc, ← BitVec.ofNat_add, Nat.add_comm 1 k]

theorem toNat_mem_spanOf_iff {a b : Word} {n : Nat} :
    b.toNat ∈ spanOf a n ↔ ∃ k, k < n ∧ b = a + BitVec.ofNat 32 k := by
  simp only [mem_spanOf_iff, BitVec.toNat_inj]

/-- Fewer bytes than the space holds do not come round to the address before them. -/
theorem toNat_notMem_spanOf_succ (a : Word) {n : Nat} (hn : n < 2 ^ 32) : a.toNat ∉ spanOf (a + 1#32) n := by
  rw [toNat_mem_spanOf_iff]
  rintro ⟨k, hk, h⟩
  have hzero : BitVec.ofNat 32 (k + 1) = 0#32 := by simpa [add_one_add_ofNat] using h
  have hmod : (k + 1) % 2 ^ 32 = 0 := congrArg BitVec.toNat hzero
  omega

/-! ## What a store leaves in memory and in the unsynced set (spec/47_store.md R233) -/

theorem extractLsb'_ushiftRight_byte (v : Word) (i : Nat) :
    (v >>> 8).extractLsb' i 8 = v.extractLsb' (i + 8) 8 := by
  ext j hj
  rw [BitVec.getElem_extractLsb', BitVec.getElem_extractLsb', BitVec.getLsbD_ushiftRight, Nat.add_right_comm,
    Nat.add_comm 8]

theorem getElem?_leBytes (v : Word) {n k : Nat} (hk : k < n) :
    (leBytes v n)[k]? = some (v.extractLsb' (8 * k) 8) := by
  induction n generalizing v k with
  | zero => cases hk
  | succ n ih =>
    cases k with
    | zero => rfl
    | succ k =>
      rw [leBytes, List.getElem?_cons_succ, ih _ (Nat.lt_of_succ_lt_succ hk), extractLsb'_ushiftRight_byte,
        Nat.mul_succ]

/-- Bytes that all fit in the space do not overwrite one another, so each is found where it was put. -/
theorem findAt_putBytes (m : Memory) (a : Word) {bs : List Byte} {k : Nat} (hk : k < bs.length)
    (hbs : bs.length ≤ 2 ^ 32) : findAt (a + BitVec.ofNat 32 k).toNat (m.putBytes a bs) = bs[k]? := by
  induction bs generalizing m a k with
  | nil => cases hk
  | cons b bs ih =>
    rw [List.length_cons] at hk hbs
    rw [Memory.putBytes]
    cases k with
    | zero =>
      rw [BitVec.add_zero, findAt_putBytes_outside _ _ _ _ (toNat_notMem_spanOf_succ a hbs), findAt_putAt, if_pos rfl,
        List.getElem?_cons_zero]
    | succ k =>
      rw [← add_one_add_ofNat, ih _ _ (Nat.lt_of_succ_lt_succ hk) (Nat.le_of_succ_le hbs), List.getElem?_cons_succ]

theorem State.byteAt_storeBytes_leBytes (s : State) (a v : Word) {n k : Nat} (hk : k < n) (hn : n ≤ 2 ^ 32) :
    (s.storeBytes a (leBytes v n)).byteAt (a + BitVec.ofNat 32 k) = v.extractLsb' (8 * k) 8 := by
  have hfind := findAt_putBytes s.mem a (bs := leBytes v n) (k := k) (by simpa using hk) (by simpa using hn)
  rw [State.byteAt, State.storeBytes_mem, hfind, getElem?_leBytes v hk, Option.getD_some]

/-- One marked address joins the set, whether or not it was in it. -/
theorem isSome_findAt_mark_one (m : Memory) (u : Unsynced) (a b : Nat) :
    (findAt b (if (findAt a u).isSome then u else putAt a (findAt a m) u)).isSome = true ↔
      (findAt b u).isSome = true ∨ b = a := by
  split
  · next hin => exact ⟨.inl, fun h => h.elim id (fun e => e ▸ hin)⟩
  · rw [findAt_putAt]
    by_cases hb : b = a <;> simp [hb]

theorem isSome_findAt_mark (m : Memory) (u : Unsynced) (a : Word) (n b : Nat) :
    (findAt b (Unsynced.mark m u a n)).isSome = true ↔ (findAt b u).isSome = true ∨ b ∈ spanOf a n := by
  induction n generalizing u a with
  | zero => simp [Unsynced.mark, spanOf]
  | succ n ih => rw [Unsynced.mark, ih, isSome_findAt_mark_one, spanOf, List.mem_cons, or_assoc]

/-! ## What the common part of the stores does (spec/47_store.md R233) -/

theorem storedOnly_storeBytes_retire (s : State) (a v : Word) {n : Nat} (hn : n ≤ 2 ^ 32) :
    StoredOnly s ((s.storeBytes a (leBytes v n)).retire (s.pc + 4#32)) a n v where
  stored _ hk := s.byteAt_storeBytes_leBytes a v hk hn
  otherBytes b hb := by
    refine s.byteAt_storeBytes_outside a b _ ?_
    rw [leBytes_length, toNat_mem_spanOf_iff]
    exact fun ⟨k, hk, h⟩ => hb k hk h
  marked b := by
    rw [State.retire_unsynced, State.storeBytes_unsynced, leBytes_length, isSome_findAt_mark, toNat_mem_spanOf_iff]
  registers _ := rfl
  nextPc := rfl
  counted := rfl
  sameCycle := rfl
  sameTime := rfl
  sameCsrs := rfl
  samePlatform := rfl
  sameTrap := rfl

/-- An instruction that does no more than the common part of the stores meets `Stores`. -/
theorem stores_of_storeFrom {i : Instr} {s : State} {a : Word} {n : Nat} {v : Word} (hn : n ≤ 2 ^ 32)
    (h : exec i s = s.storeFrom a n v) : Stores i s a n v := by
  unfold State.storeFrom at h
  refine ⟨fun hm => ?_, fun hm hv => ?_, fun hm hv => ?_⟩
  · rw [State.accessCause_misaligned hm] at h
    exact traps_of_raise h
  · rw [State.accessCause_fault hm hv] at h
    exact traps_of_raise h
  · rw [State.accessCause_valid hm hv] at h
    exact ⟨_, h, storedOnly_storeBytes_retire s a v hn⟩

/-! ## What each instruction stores (spec/47_store.md R230 to R232) -/

section
variable (s : State) (rs2 rs1 : Reg) (imm12 : BitVec 12)

theorem exec_sw : exec (.sw rs2 rs1 imm12) s = s.storeFrom (s.effAddr rs1 imm12) 4 (s.reg rs2) := rfl

theorem exec_sh : exec (.sh rs2 rs1 imm12) s = s.storeFrom (s.effAddr rs1 imm12) 2 (s.reg rs2) := rfl

theorem exec_sb : exec (.sb rs2 rs1 imm12) s = s.storeFrom (s.effAddr rs1 imm12) 1 (s.reg rs2) := rfl

end

/-! ## The statements -/

/-- Settles O43: SW is the common store of 4 bytes, which are all of the register. -/
theorem storeWord : Obligations.StoreWord := fun s rs2 rs1 imm12 =>
  ⟨rfl, stores_of_storeFrom (by decide) (exec_sw s rs2 rs1 imm12)⟩

/-- Settles O44: SH is the common store of 2 bytes, which are the register's low half. -/
theorem storeHalf : Obligations.StoreHalf := fun s rs2 rs1 imm12 =>
  ⟨rfl, stores_of_storeFrom (by decide) (exec_sh s rs2 rs1 imm12)⟩

/-- Settles O45: SB is the common store of 1 byte, and every address is a multiple of 1. -/
theorem storeByte : Obligations.StoreByte := fun s rs2 rs1 imm12 =>
  ⟨rfl, not_raisesMisaligned_one s _, stores_of_storeFrom (by decide) (exec_sb s rs2 rs1 imm12)⟩

end Sys2Proof.Machine
end

section
/-! PROOFS. The statement about FENCE.I: the byte memory held when the unsynced set was last empty, what a step and a
run do to it, then the statement. -/

namespace Sys2Proof.Machine

/-! ## The old byte at an address (spec/48_fence.md R245) -/

/-- The byte memory held when the unsynced set was last empty: the one kept with an unsynced address, and the one in
memory at any other. -/
def State.oldByte (s : State) (a : Word) : Byte :=
  ((findAt a.toNat s.unsynced).getD (findAt a.toNat s.mem)).getD (Config.memReset a.toNat)

theorem oldBytesFrom_iff {base s : State} : OldBytesFrom base s ↔ ∀ a, s.oldByte a = base.byteAt a := by
  refine forall_congr' fun a => ?_
  unfold State.oldByte State.byteAt
  cases findAt a.toNat s.unsynced <;> rfl

theorem State.oldByte_of_unsynced_nil {s : State} (h : s.unsynced = []) (a : Word) : s.oldByte a = s.byteAt a := by
  simp [State.oldByte, State.byteAt, h, findAt]

/-- The only two bytes a fetch can see, whatever the free choice. -/
theorem State.fetchByte_eq_byteAt_or_oldByte (s : State) (a : Word) :
    s.fetchByte a = s.byteAt a ∨ s.fetchByte a = s.oldByte a := by
  unfold State.fetchByte State.oldByte
  cases findAt a.toNat s.unsynced with
  | none => exact .inl rfl
  | some old => exact (ite_eq_or_eq _ _ _).symm

/-! ## What a store does to the old bytes (spec/47_store.md R233) -/

/-- Marking keeps with each address that joins the set what memory holds there. -/
theorem getD_findAt_mark (m : Memory) (u : Unsynced) (a : Word) (n b : Nat) :
    (findAt b (Unsynced.mark m u a n)).getD (findAt b m) = (findAt b u).getD (findAt b m) := by
  induction n generalizing u a with
  | zero => rfl
  | succ n ih =>
    rw [Unsynced.mark, ih]
    split
    · rfl
    · next hout =>
      rw [findAt_putAt]
      split
      · next hb => subst hb; simp [Option.not_isSome_iff_eq_none.1 hout]
      · rfl

/-- Where memory changed, the address is marked, and there memory is not consulted. -/
theorem getD_findAt_mark_putBytes (m : Memory) (u : Unsynced) (a : Word) (bs : List Byte) (b : Nat) :
    (findAt b (Unsynced.mark m u a bs.length)).getD (findAt b (m.putBytes a bs)) = (findAt b u).getD (findAt b m) := by
  rw [← getD_findAt_mark m u a bs.length b]
  cases hfind : findAt b (Unsynced.mark m u a bs.length) with
  | some old => rfl
  | none =>
    have hout : b ∉ spanOf a bs.length := fun hin => by
      simpa [hfind] using (isSome_findAt_mark m u a bs.length b).2 (.inr hin)
    exact findAt_putBytes_outside m a bs b hout

theorem State.oldByte_storeBytes (s : State) (a b : Word) (bs : List Byte) :
    (s.storeBytes a bs).oldByte b = s.oldByte b := by
  rw [State.oldByte, State.storeBytes_unsynced, State.storeBytes_mem, getD_findAt_mark_putBytes, State.oldByte]

/-! ## What a step does to the old bytes (spec/10_state.md R35, R36) -/

/-- From `s` to `t` every old byte stayed as it was. -/
def KeepsOldBytes (s t : State) : Prop := ∀ a, t.oldByte a = s.oldByte a

section
variable {s t : State}

theorem keepsOldBytes_of_same (hm : t.mem = s.mem) (hu : t.unsynced = s.unsynced) : KeepsOldBytes s t :=
  fun a => by rw [State.oldByte, State.oldByte, hm, hu]

theorem State.raise_keepsOldBytes {c : Cause} {info : Word} (h : s.raise c info = .next t) : KeepsOldBytes s t := by
  cases State.raise_next h
  exact keepsOldBytes_of_same rfl rfl

theorem State.writeResult_keepsOldBytes {rd : Reg} {v : Word} (h : s.writeResult rd v = .next t) :
    KeepsOldBytes s t := by
  cases State.writeResult_next h
  exact keepsOldBytes_of_same rfl rfl

theorem State.loadTo_keepsOldBytes {rd : Reg} {a : Word} {n : Nat} {v : Word} (h : s.loadTo rd a n v = .next t) :
    KeepsOldBytes s t := by
  obtain ⟨-, rfl⟩ | ⟨c, -, rfl⟩ := State.loadTo_next h <;> exact keepsOldBytes_of_same rfl rfl

theorem State.storeFrom_keepsOldBytes {a : Word} {n : Nat} {v : Word} (h : s.storeFrom a n v = .next t) :
    KeepsOldBytes s t := by
  obtain ⟨-, rfl⟩ | ⟨c, -, rfl⟩ := State.storeFrom_next h
  · exact fun b => s.oldByte_storeBytes a b (leBytes v n)
  · exact keepsOldBytes_of_same rfl rfl

theorem State.csrAccess_keepsOldBytes {inst : Word} {rd : Reg} {c : CsrNum} {reads writes : Bool} {new : Word → Word}
    (h : s.csrAccess inst rd c reads writes new = .next t) : KeepsOldBytes s t := by
  obtain ⟨-, rfl⟩ | ⟨-, rfl⟩ := State.csrAccess_next h
  · exact keepsOldBytes_of_same rfl rfl
  · cases writes <;> cases reads <;> exact keepsOldBytes_of_same rfl rfl

theorem State.goToLinking_keepsOldBytes {rd : Reg} {target : Word} (h : s.goToLinking rd target = .next t) :
    KeepsOldBytes s t := by
  obtain ⟨-, rfl⟩ | ⟨-, rfl⟩ := State.goToLinking_next h <;> exact keepsOldBytes_of_same rfl rfl

theorem State.branchIf_keepsOldBytes {taken : Bool} {imm13 : BitVec 13} (h : s.branchIf taken imm13 = .next t) :
    KeepsOldBytes s t := by
  obtain ⟨-, rfl⟩ | ⟨-, -, rfl⟩ | ⟨-, -, rfl⟩ := State.branchIf_next h <;> exact keepsOldBytes_of_same rfl rfl

theorem exec_fenceI (s : State) : exec .fenceI s = .next (s.syncFetch.retire (s.pc + 4#32)) := rfl

/-- FENCE.I alone changes an old byte. -/
theorem exec_keepsOldBytes {i : Instr} (hi : i ≠ .fenceI) (h : exec i s = .next t) : KeepsOldBytes s t := by
  cases i with
  | addi | slti | sltiu | xori | ori | andi | slli | srli | srai => exact State.writeResult_keepsOldBytes h
  | add | sub | slt | sltu | and | or | xor | sll | srl | sra => exact State.writeResult_keepsOldBytes h
  | lui | auipc => exact State.writeResult_keepsOldBytes h
  | lw | lh | lhu | lb | lbu => exact State.loadTo_keepsOldBytes h
  | sw | sh | sb => exact State.storeFrom_keepsOldBytes h
  | csrrw | csrrs | csrrc | csrrwi | csrrsi | csrrci =>
    simp only [exec_csrrw, exec_csrrs, exec_csrrc, exec_csrrwi, exec_csrrsi, exec_csrrci] at h
    exact State.csrAccess_keepsOldBytes h
  | ecall | ebreak => exact State.raise_keepsOldBytes h
  | jal | jalr => exact State.goToLinking_keepsOldBytes h
  | beq | bne | blt | bltu | bge | bgeu => exact State.branchIf_keepsOldBytes h
  | fence =>
    cases State.finish_next h
    exact keepsOldBytes_of_same rfl rfl
  | fenceI => exact absurd rfl hi

theorem step_keepsOldBytes_or_syncs (h : step s = .next t) : KeepsOldBytes s t ∨ t.unsynced = [] := by
  obtain ⟨-, ⟨c, -, rfl⟩ | ⟨w, e, -, -, rfl⟩ | ⟨w, i, -, -, hexec⟩⟩ := step_next h
  · exact .inl (keepsOldBytes_of_same rfl rfl)
  · exact .inl (keepsOldBytes_of_same rfl rfl)
  · by_cases hi : i = .fenceI
    · subst hi
      cases hexec
      exact .inr rfl
    · exact .inl (exec_keepsOldBytes hi hexec)

end

/-! ## What a run does to the old bytes -/

/-- A state that the first `k` steps from `s` pass held the byte `v` at `a`. -/
def HeldWithin (k : Nat) (s : State) (a : Word) (v : Byte) : Prop := ∃ j u, j ≤ k ∧ Reaches j s u ∧ v = u.byteAt a

theorem HeldWithin.after {k : Nat} {s t : State} {a : Word} {v : Byte} (hstep : step s = .next t)
    (h : HeldWithin k t a v) : HeldWithin (k + 1) s a v := by
  obtain ⟨j, u, hj, hr, hv⟩ := h
  exact ⟨j + 1, u, Nat.succ_le_succ hj, .after hstep hr, hv⟩

theorem heldWithin_start (k : Nat) (s : State) (a : Word) : HeldWithin k s a (s.byteAt a) :=
  ⟨0, s, k.zero_le, .here s, rfl⟩

/-- The old byte after a run is the one from before it, or one that memory held at a state where the run emptied the
unsynced set. -/
theorem oldByte_of_reaches {k : Nat} {s u : State} (h : Reaches k s u) (a : Word) :
    u.oldByte a = s.oldByte a ∨ HeldWithin k s a (u.oldByte a) := by
  induction h with
  | here s => exact .inl rfl
  | @after k s t u hstep hrun ih =>
    obtain hsame | hheld := ih
    · obtain hkept | hsynced := step_keepsOldBytes_or_syncs hstep
      · exact .inl (hsame.trans (hkept a))
      · rw [hsame, State.oldByte_of_unsynced_nil hsynced]
        exact .inr ((heldWithin_start k t a).after hstep)
    · exact .inr (hheld.after hstep)

/-- From an empty unsynced set on, a fetch sees only bytes that memory held since. -/
theorem fetchByte_heldWithin {k : Nat} {t u : State} (ht : t.unsynced = []) (h : Reaches k t u) (a : Word) :
    HeldWithin k t a (u.fetchByte a) := by
  obtain hnew | hold := u.fetchByte_eq_byteAt_or_oldByte a
  · exact ⟨k, u, k.le_refl, h, hnew⟩
  · rw [hold]
    obtain hsame | hheld := oldByte_of_reaches h a
    · rw [hsame, State.oldByte_of_unsynced_nil ht]
      exact heldWithin_start k t a
    · exact hheld

/-! ## The statement -/

/-- Settles O55: FENCE.I leaves the unsynced set empty, so the old bytes are then memory's own; a later step keeps
them or takes memory's own again. -/
theorem fenceISynchronises : Obligations.FenceISynchronises := by
  refine fun s => ⟨rfl, _, exec_fenceI s, movedOnly_retire s.syncFetch _, fun _ => rfl, fun u hu a => ?_,
    fun _ _ h a => fetchByte_heldWithin rfl h a⟩
  have hold : u.oldByte a = s.byteAt a := oldBytesFrom_iff.1 hu a
  exact hold ▸ u.fetchByte_eq_byteAt_or_oldByte a

end Sys2Proof.Machine
end

section
/-! PROOFS. The statements about the encoding: the fields of each format read back, a word put together again from its
fields, both directions row by row, then the statements. -/

namespace Sys2Proof

/-! ## Fields in terms of the I and the U format (spec/30_encoding.md R81 to R88) -/

theorem extractLsb'_extractLsb' {v a m b n : Nat} (x : BitVec v) (h : b + n ≤ m) :
    (x.extractLsb' a m).extractLsb' b n = x.extractLsb' (a + b) n := by
  ext i hi
  have hb : b + i < m := by omega
  simp [hb, Nat.add_assoc]

section
variable (w : Word)

theorem rs2Of_eq_immI : rs2Of w = (immI w).extractLsb' 0 5 := by
  simp [rs2Of, immI, extractLsb'_extractLsb']

theorem upperBits_eq_immI : upperBits w = (immI w).extractLsb' 5 7 := by
  simp [immI, extractLsb'_extractLsb']

theorem upperBits_append_rs2Of : upperBits w ++ rs2Of w = immI w :=
  BitVec.extractLsb'_append_extractLsb'_eq_extractLsb' rfl

theorem immS_eq : immS w = (immI w).extractLsb' 5 7 ++ rdOf w := by
  rw [← upperBits_eq_immI, immS, rdOf]

theorem immB_eq : immB w = (immI w).extractLsb' 11 1 ++ (rdOf w).extractLsb' 0 1 ++ (immI w).extractLsb' 5 6 ++
    (rdOf w).extractLsb' 1 4 ++ 0#1 := by
  simp [immB, immI, rdOf, extractLsb'_extractLsb']

theorem immJ_eq : immJ w = (immU w).extractLsb' 19 1 ++ (immU w).extractLsb' 0 8 ++ (immU w).extractLsb' 8 1 ++
    (immU w).extractLsb' 9 10 ++ 0#1 := by
  simp [immJ, immU, extractLsb'_extractLsb']

/-- The four kinds of operation that the bits of one side of a FENCE name. -/
def fenceSetOf (b : BitVec 4) : FenceSet := { i := b.getLsbD 3, o := b.getLsbD 2, r := b.getLsbD 1, w := b.getLsbD 0 }

theorem bits_fenceSetOf : ∀ b : BitVec 4, (fenceSetOf b).bits = b := by decide

theorem fenceSetOf_bits (p : FenceSet) : fenceSetOf p.bits = p := by
  rcases p with ⟨_ | _, _ | _, _ | _, _ | _⟩ <;> rfl

theorem reserved_eq_immI : w.extractLsb' 28 4 = (immI w).extractLsb' 8 4 := by
  simp [immI, extractLsb'_extractLsb']

theorem predOf_eq : predOf w = fenceSetOf ((immI w).extractLsb' 4 4) := by
  simp [predOf, fenceSetOf, immI]

theorem succOf_eq : succOf w = fenceSetOf ((immI w).extractLsb' 0 4) := by
  simp [succOf, fenceSetOf, immI]

end

/-! ## The formats in terms of the I and the U format -/

section
variable (imm12 : BitVec 12) (imm20 : BitVec 20) (imm13 : BitVec 13) (imm21 : BitVec 21)
variable (rs2 rs1 : BitVec 5) (rd : Reg) (f2 : BitVec 7) (f : BitVec 3) (op : BitVec 7)

theorem encR_eq_encI : encR f2 rs2 rs1 f rd op = encI (f2 ++ rs2) rs1 f rd op := rfl

theorem encS_eq_encI : encS imm12 rs2 rs1 f op =
    encI (imm12.extractLsb' 5 7 ++ rs2) rs1 f (imm12.extractLsb' 0 5) op := rfl

theorem encB_eq_encI : encB imm13 rs2 rs1 f op =
    encI (imm13.extractLsb' 12 1 ++ imm13.extractLsb' 5 6 ++ rs2) rs1 f
      (imm13.extractLsb' 1 4 ++ imm13.extractLsb' 11 1) op := by
  rw [encB, BitVec.append_assoc (x₃ := imm13.extractLsb' 11 1)]
  rfl

theorem encJ_eq_encU : encJ imm21 rd op =
    encU (imm21.extractLsb' 20 1 ++ imm21.extractLsb' 1 10 ++ imm21.extractLsb' 11 1 ++ imm21.extractLsb' 12 8)
      rd op := rfl

/-! ## The fields of an encoded word

A field is found by dropping the parts below it. Each `simp` names their widths, because the width 32 of a word does not
say where to split it. -/

theorem bit0_of_evenOffset {n : Nat} {imm : BitVec n} (h : evenOffset imm = true) : imm.extractLsb' 0 1 = 0#1 := by
  ext i hi
  cases Nat.lt_one_iff.1 hi
  simpa [evenOffset] using h

open BitVec

@[simp] theorem fields_encI : immI (encI imm12 rs1 f rd op) = imm12 ∧ rs1Of (encI imm12 rs1 f rd op) = rs1 ∧
    functionBits (encI imm12 rs1 f rd op) = f ∧ rdOf (encI imm12 rs1 f rd op) = rd := by
  simp [immI, rs1Of, rdOf, encI, extractLsb'_append_eq_of_le (w := 7), extractLsb'_append_eq_of_le (w := 5),
    extractLsb'_append_eq_of_le (w := 3), extractLsb'_append_eq_right (w' := 5), extractLsb'_append_eq_right (w' := 3)]

@[simp] theorem fields_encU : immU (encU imm20 rd op) = imm20 ∧ rdOf (encU imm20 rd op) = rd := by
  simp [immU, rdOf, encU, extractLsb'_append_eq_of_le (w := 7), extractLsb'_append_eq_of_le (w := 5),
    extractLsb'_append_eq_right (w' := 5)]

@[simp] theorem fields_encR : upperBits (encR f2 rs2 rs1 f rd op) = f2 ∧ rs2Of (encR f2 rs2 rs1 f rd op) = rs2 ∧
    rs1Of (encR f2 rs2 rs1 f rd op) = rs1 ∧ functionBits (encR f2 rs2 rs1 f rd op) = f ∧
    rdOf (encR f2 rs2 rs1 f rd op) = rd := by
  rw [encR_eq_encI, upperBits_eq_immI, rs2Of_eq_immI]
  simp [extractLsb'_append_eq_of_le (w := 5), extractLsb'_append_eq_right (w' := 5)]

@[simp] theorem fields_encS : immS (encS imm12 rs2 rs1 f op) = imm12 ∧ rs2Of (encS imm12 rs2 rs1 f op) = rs2 ∧
    rs1Of (encS imm12 rs2 rs1 f op) = rs1 ∧ functionBits (encS imm12 rs2 rs1 f op) = f := by
  have joined : imm12.extractLsb' 5 7 ++ imm12.extractLsb' 0 5 = imm12 := extractLsb'_append_extractLsb'
  rw [encS_eq_encI, immS_eq, rs2Of_eq_immI]
  simp [joined, extractLsb'_append_eq_of_le (w := 5), extractLsb'_append_eq_right (w' := 5)]

@[simp] theorem fields_encB : rs2Of (encB imm13 rs2 rs1 f op) = rs2 ∧ rs1Of (encB imm13 rs2 rs1 f op) = rs1 ∧
    functionBits (encB imm13 rs2 rs1 f op) = f := by
  rw [encB_eq_encI, rs2Of_eq_immI]
  simp [extractLsb'_append_eq_right (w' := 5)]

@[simp] theorem rdOf_encJ : rdOf (encJ imm21 rd op) = rd := by
  simp [encJ_eq_encU]

theorem joined_imm13 : imm13.extractLsb' 12 1 ++ imm13.extractLsb' 11 1 ++ imm13.extractLsb' 5 6 ++
    imm13.extractLsb' 1 4 ++ imm13.extractLsb' 0 1 = imm13 := by
  simp only [extractLsb'_append_extractLsb'_eq_extractLsb', extractLsb'_eq_self]

theorem joined_imm21 : imm21.extractLsb' 20 1 ++ imm21.extractLsb' 12 8 ++ imm21.extractLsb' 11 1 ++
    imm21.extractLsb' 1 10 ++ imm21.extractLsb' 0 1 = imm21 := by
  simp only [extractLsb'_append_extractLsb'_eq_extractLsb', extractLsb'_eq_self]

theorem immB_encB (h : evenOffset imm13 = true) : immB (encB imm13 rs2 rs1 f op) = imm13 := by
  rw [encB_eq_encI, immB_eq, ← bit0_of_evenOffset h]
  simpa [extractLsb'_extractLsb', extractLsb'_append_eq_of_le (w := 5), extractLsb'_append_eq_of_le (w := 1),
    extractLsb'_append_eq_of_le (w := 6), extractLsb'_append_eq_right (w' := 1),
    extractLsb'_append_eq_right (w' := 6)] using joined_imm13 imm13

theorem immJ_encJ (h : evenOffset imm21 = true) : immJ (encJ imm21 rd op) = imm21 := by
  rw [encJ_eq_encU, immJ_eq, ← bit0_of_evenOffset h]
  simpa [extractLsb'_extractLsb', extractLsb'_append_eq_of_le (w := 8), extractLsb'_append_eq_of_le (w := 1),
    extractLsb'_append_eq_of_le (w := 10), extractLsb'_append_eq_right (w' := 8),
    extractLsb'_append_eq_right (w' := 1), extractLsb'_append_eq_right (w' := 10)] using joined_imm21 imm21

@[simp] theorem fields_encFence (p q : FenceSet) :
    (encI (0#4 ++ p.bits ++ q.bits) rs1 f rd op).extractLsb' 28 4 = 0#4 ∧
    predOf (encI (0#4 ++ p.bits ++ q.bits) rs1 f rd op) = p ∧
    succOf (encI (0#4 ++ p.bits ++ q.bits) rs1 f rd op) = q := by
  rw [reserved_eq_immI, predOf_eq, succOf_eq]
  simp [extractLsb'_append_eq_of_le (w := 4), extractLsb'_append_eq_right (w' := 4), fenceSetOf_bits]

end

/-! ## A word put together from its fields -/

section
open BitVec

variable {w : Word} {f : BitVec 3} {op : BitVec 7}

theorem encI_of_fields (hop : opcodeBits w = op) (hf : functionBits w = f) :
    encI (immI w) (rs1Of w) f (rdOf w) op = w := by
  subst hop hf
  simp only [encI, immI, rs1Of, rdOf, extractLsb'_append_extractLsb'_eq_extractLsb', extractLsb'_eq_self]

theorem encI_of_fenceFields (hop : opcodeBits w = op) (hf : functionBits w = f) (hreserved : w.extractLsb' 28 4 = 0#4)
    (hrs1 : rs1Of w = 0#5) (hrd : rdOf w = 0#5) :
    encI (0#4 ++ (predOf w).bits ++ (succOf w).bits) 0#5 f 0#5 op = w := by
  have joined : (immI w).extractLsb' 8 4 ++ (immI w).extractLsb' 4 4 ++ (immI w).extractLsb' 0 4 = immI w := by
    simp only [extractLsb'_append_extractLsb'_eq_extractLsb', extractLsb'_eq_self]
  have hI := encI_of_fields hop hf
  rw [hrs1, hrd] at hI
  rw [predOf_eq, succOf_eq, bits_fenceSetOf, bits_fenceSetOf, ← hreserved, reserved_eq_immI, joined, hI]

theorem encU_of_fields (hop : opcodeBits w = op) : encU (immU w) (rdOf w) op = w := by
  subst hop
  simp only [encU, immU, rdOf, extractLsb'_append_extractLsb'_eq_extractLsb', extractLsb'_eq_self]

theorem encR_of_fields {f2 : BitVec 7} (hop : opcodeBits w = op) (hf : functionBits w = f) (hf2 : upperBits w = f2) :
    encR f2 (rs2Of w) (rs1Of w) f (rdOf w) op = w := by
  rw [encR_eq_encI, ← hf2, upperBits_append_rs2Of, encI_of_fields hop hf]

theorem encS_of_fields (hop : opcodeBits w = op) (hf : functionBits w = f) :
    encS (immS w) (rs2Of w) (rs1Of w) f op = w := by
  have hhigh : (immS w).extractLsb' 5 7 = upperBits w := extractLsb'_append_eq_left
  have hlow : (immS w).extractLsb' 0 5 = rdOf w := extractLsb'_append_eq_right
  rw [encS_eq_encI, hhigh, hlow, upperBits_append_rs2Of, encI_of_fields hop hf]

theorem encB_of_fields (hop : opcodeBits w = op) (hf : functionBits w = f) :
    encB (immB w) (rs2Of w) (rs1Of w) f op = w := by
  have joinedHigh : (immI w).extractLsb' 11 1 ++ (immI w).extractLsb' 5 6 ++ (immI w).extractLsb' 0 5 = immI w := by
    simp only [extractLsb'_append_extractLsb'_eq_extractLsb', extractLsb'_eq_self]
  have joinedLow : (rdOf w).extractLsb' 1 4 ++ (rdOf w).extractLsb' 0 1 = rdOf w := extractLsb'_append_extractLsb'
  rw [encB_eq_encI, immB_eq, rs2Of_eq_immI]
  simp [extractLsb'_append_eq_of_le (w := 1), extractLsb'_append_eq_of_le (w := 4),
    extractLsb'_append_eq_of_le (w := 6), extractLsb'_append_eq_right (w' := 1), extractLsb'_append_eq_right (w' := 4),
    extractLsb'_append_eq_right (w' := 6), joinedHigh, joinedLow, encI_of_fields hop hf]

theorem encJ_of_fields (hop : opcodeBits w = op) : encJ (immJ w) (rdOf w) op = w := by
  have joined : (immU w).extractLsb' 19 1 ++ (immU w).extractLsb' 9 10 ++ (immU w).extractLsb' 8 1 ++
    (immU w).extractLsb' 0 8 = immU w := by
    simp only [extractLsb'_append_extractLsb'_eq_extractLsb', extractLsb'_eq_self]
  rw [encJ_eq_encU, immJ_eq]
  simp [extractLsb'_extractLsb', extractLsb'_append_eq_of_le (w := 8), extractLsb'_append_eq_of_le (w := 1),
    extractLsb'_append_eq_of_le (w := 10), extractLsb'_append_eq_right (w' := 8),
    extractLsb'_append_eq_right (w' := 1), extractLsb'_append_eq_right (w' := 10), joined, encU_of_fields hop]

end

/-! ## Words to instructions and back, row by row (spec/30_encoding.md R95)

The mask and pattern of a row are equations on the opcode, the function and the upper bits, with which the format puts
the word together again from the fields that the row reads. -/

theorem imm5I_eq (w : Word) : imm5I w = rs2Of w := rfl

theorem csrOf_eq (w : Word) : csrOf w = immI w := rfl

theorem uimm5Of_eq (w : Word) : uimm5Of w = rs1Of w := rfl

theorem and_wholeMask (w : Word) : w &&& 0xFFFFFFFF#32 = w := BitVec.and_allOnes

/-- The row gives back the words it takes. -/
def Row.Reencodes (r : Row) : Prop :=
  ∀ w, w &&& r.mask = r.pattern → WellFormed (r.build w) = true ∧ encode (r.build w) = w

theorem rowsOpImm_reencode : ∀ r ∈ rowsOpImm, r.Reencodes := by
  simp +contextual [Row.Reencodes, rowsOpImm, encode, WellFormed, and_functionMask_eq_iff, and_upperMask_eq_iff,
    imm5I_eq, encI_of_fields, encR_of_fields]

theorem rowsJalrLoads_reencode : ∀ r ∈ rowsJalrLoads, r.Reencodes := by
  simp +contextual [Row.Reencodes, rowsJalrLoads, encode, WellFormed, and_functionMask_eq_iff, encI_of_fields]

theorem rowsSystem_reencode : ∀ r ∈ rowsSystem, r.Reencodes := by
  have hecall : encI 0#12 0#5 0b000#3 0#5 0b1110011#7 = 0x00000073#32 := by decide
  have hebreak : encI 1#12 0#5 0b000#3 0#5 0b1110011#7 = 0x00100073#32 := by decide
  simp +contextual [Row.Reencodes, rowsSystem, encode, WellFormed, and_functionMask_eq_iff, and_wholeMask, csrOf_eq,
    uimm5Of_eq, encI_of_fields, hecall, hebreak]

theorem rowsUpperImm_reencode : ∀ r ∈ rowsUpperImm, r.Reencodes := by
  simp +contextual [Row.Reencodes, rowsUpperImm, encode, WellFormed, and_opcodeMask_eq_iff, encU_of_fields]

theorem rowsRegister_reencode : ∀ r ∈ rowsRegister, r.Reencodes := by
  simp +contextual [Row.Reencodes, rowsRegister, encode, WellFormed, and_upperMask_eq_iff, encR_of_fields]

theorem evenOffset_append_zero {n : Nat} (x : BitVec n) : evenOffset (x ++ 0#1) = true := by
  have hbit : (x ++ 0#1).getLsbD 0 = false := by rw [BitVec.getLsbD_append]; rfl
  rw [evenOffset, hbit, Bool.not_false]

theorem rowsJal_reencode : ∀ r ∈ rowsJal, r.Reencodes := by
  have heven (w : Word) : evenOffset (immJ w) = true := evenOffset_append_zero _
  simp +contextual [Row.Reencodes, rowsJal, encode, WellFormed, and_opcodeMask_eq_iff, encJ_of_fields, heven]

theorem rowsBranch_reencode : ∀ r ∈ rowsBranch, r.Reencodes := by
  have heven (w : Word) : evenOffset (immB w) = true := evenOffset_append_zero _
  simp +contextual [Row.Reencodes, rowsBranch, encode, WellFormed, and_functionMask_eq_iff, encB_of_fields, heven]

theorem rowsStore_reencode : ∀ r ∈ rowsStore, r.Reencodes := by
  simp +contextual [Row.Reencodes, rowsStore, encode, WellFormed, and_functionMask_eq_iff, encS_of_fields]

theorem rowsFence_reencode : ∀ r ∈ rowsFence, r.Reencodes := by
  have hfenceI : encI 0#12 0#5 0b001#3 0#5 0b0001111#7 = 0x0000100F#32 := by decide
  simp +contextual [Row.Reencodes, rowsFence, encode, WellFormed, and_fenceMask_eq_iff, and_wholeMask, hfenceI,
    encI_of_fenceFields]

theorem rows_reencode : ∀ r ∈ rows, r.Reencodes := by
  simp only [rows, List.forall_mem_append, and_assoc]
  exact ⟨rowsOpImm_reencode, rowsJalrLoads_reencode, rowsSystem_reencode, rowsUpperImm_reencode,
    rowsRegister_reencode, rowsJal_reencode, rowsBranch_reencode, rowsStore_reencode, rowsFence_reencode⟩

/-! ## Instructions to words and back -/

/-- One of these rows matches the word and names the instruction. -/
def NamedBy (l : List Row) (w : Word) (i : Instr) : Prop := ∃ r ∈ l, w &&& r.mask = r.pattern ∧ r.build w = i

theorem decode_of_namedBy {l : List Row} {w : Word} {i : Instr} (hl : ∀ r ∈ l, r ∈ rows) (h : NamedBy l w i) :
    decode w = .ok i := by
  obtain ⟨r, hr, hw, hi⟩ := h
  rw [decode_of_accepts (hl r hr) hw, hi]

theorem namedBy_of_decode {w : Word} {i : Instr} (h : decode w = .ok i) : NamedBy rows w i := by
  unfold decode at h
  split at h
  · next r hr =>
    cases h
    have hw : r.accepts w = true := List.find?_some (p := fun r : Row => r.accepts w) hr
    exact ⟨r, List.mem_of_find?_eq_some hr, (r.accepts_iff w).1 hw, rfl⟩
  · cases h

/-- The fixed fields of the encoding meet one row of the instruction's family, and that row reads the operands back. -/
theorem decode_encode {i : Instr} (h : WellFormed i = true) : decode (encode i) = .ok i := by
  cases i with
  | addi | slti | sltiu | xori | ori | andi | slli | srli | srai =>
    refine decode_of_namedBy (l := rowsOpImm) (fun r hr => by simp [rows, hr]) ?_
    simp [NamedBy, rowsOpImm, encode, and_functionMask_eq_iff, and_upperMask_eq_iff, imm5I_eq]
  | jalr | lw | lh | lhu | lb | lbu =>
    refine decode_of_namedBy (l := rowsJalrLoads) (fun r hr => by simp [rows, hr]) ?_
    simp [NamedBy, rowsJalrLoads, encode, and_functionMask_eq_iff]
  | csrrw | csrrs | csrrc | csrrwi | csrrsi | csrrci | ecall | ebreak =>
    refine decode_of_namedBy (l := rowsSystem) (fun r hr => by simp [rows, hr]) ?_
    simp [NamedBy, rowsSystem, encode, and_functionMask_eq_iff, and_wholeMask_eq_iff, csrOf_eq, uimm5Of_eq]
  | lui | auipc =>
    refine decode_of_namedBy (l := rowsUpperImm) (fun r hr => by simp [rows, hr]) ?_
    simp [NamedBy, rowsUpperImm, encode, and_opcodeMask_eq_iff]
  | add | sub | slt | sltu | and | or | xor | sll | srl | sra =>
    refine decode_of_namedBy (l := rowsRegister) (fun r hr => by simp [rows, hr]) ?_
    simp [NamedBy, rowsRegister, encode, and_upperMask_eq_iff]
  | jal =>
    have heven : evenOffset _ = true := h
    refine decode_of_namedBy (l := rowsJal) (fun r hr => by simp [rows, hr]) ?_
    simp [NamedBy, rowsJal, encode, and_opcodeMask_eq_iff, immJ_encJ, heven]
  | beq | bne | blt | bltu | bge | bgeu =>
    have heven : evenOffset _ = true := h
    refine decode_of_namedBy (l := rowsBranch) (fun r hr => by simp [rows, hr]) ?_
    simp [NamedBy, rowsBranch, encode, and_functionMask_eq_iff, immB_encB, heven]
  | sw | sh | sb =>
    refine decode_of_namedBy (l := rowsStore) (fun r hr => by simp [rows, hr]) ?_
    simp [NamedBy, rowsStore, encode, and_functionMask_eq_iff]
  | fence | fenceI =>
    refine decode_of_namedBy (l := rowsFence) (fun r hr => by simp [rows, hr]) ?_
    simp [NamedBy, rowsFence, encode, and_fenceMask_eq_iff, and_wholeMask_eq_iff]

/-! ## The bytes of an instruction (spec/30_encoding.md R80, spec/20_memory.md R50, R56) -/

theorem leHalf_bytes (v : Word) (lo : Nat) :
    leHalf (v.extractLsb' lo 8) (v.extractLsb' (lo + 8) 8) = v.extractLsb' lo 16 :=
  BitVec.extractLsb'_append_extractLsb'_eq_extractLsb' rfl

theorem leWord_bytes (v : Word) :
    leWord (v.extractLsb' 0 8) (v.extractLsb' 8 8) (v.extractLsb' 16 8) (v.extractLsb' 24 8) = v := by
  simp only [leWord, BitVec.extractLsb'_append_extractLsb'_eq_extractLsb', BitVec.extractLsb'_eq_self]

theorem leBytes_four (v : Word) :
    leBytes v 4 = [v.extractLsb' 0 8, v.extractLsb' 8 8, v.extractLsb' 16 8, v.extractLsb' 24 8] := by
  simp only [leBytes, Machine.extractLsb'_ushiftRight_byte, Nat.zero_add, Nat.reduceAdd]

theorem decodeBytes_leBytes {w : Word} {i : Instr} (h : decode w = .ok i) (rest : List Byte) :
    decodeBytes (leBytes w 4 ++ rest) = .ok (i, rest) := by
  simp [leBytes_four, decodeBytes, leWord_bytes, h]

/-! ## The statements -/

/-- Settles O2: the word has the fields its instruction was encoded from, and one row of the instruction's family
fixes exactly the other bits. -/
theorem decodeOfEncode : Obligations.DecodeOfEncode := fun _ => decode_encode

/-- Settles O3: decoding takes a row, the bits the row fixes are those its instruction is encoded with, and the fields
it reads are all the others. -/
theorem encodeOfDecode : Obligations.EncodeOfDecode := by
  intro w i h
  obtain ⟨r, hr, hw, rfl⟩ := namedBy_of_decode h
  exact rows_reencode r hr w hw

/-- Settles O4: the four bytes put together least significant first are the instruction's word again. -/
theorem decodeBytesOfEncodeBytes : Obligations.DecodeBytesOfEncodeBytes :=
  fun _ rest h => decodeBytes_leBytes (decode_encode h) rest

theorem decode_of_encode_eq {w : Word} {i : Instr} (hw : encode i = w) (h : WellFormed i = true) : decode w = .ok i :=
  hw ▸ decode_encode h

/-- Settles O6: each of the twelve words is the encoding of the instruction the spec gives it. -/
theorem knownWordsDecode : Obligations.KnownWordsDecode := by
  refine ⟨?_, ?_, ?_, ?_, ?_, ?_, ?_, ?_, ?_, ?_, ?_, ?_⟩ <;> exact decode_of_encode_eq rfl rfl

end Sys2Proof
end

section
/-! PROOFS. The statements about every instruction and every step: all that one instruction can do, then what a step and
a run keep. -/

namespace Sys2Proof.Machine

/-! ## All that one instruction can do -/

/-- The state as a CSR instruction that passes its check leaves it before it retires (spec/42_system.md R160, R161). -/
def State.csrAccessed (s : State) (rd : Reg) (c : CsrNum) (reads writes : Bool) (v : Word) : State :=
  if writes then (if reads then s.csrReadTo rd c else s).csrWrite c v else if reads then s.csrReadTo rd c else s

/-- Where an instruction that retires goes on: at the next instruction or at a target it has checked. -/
def Follows (s : State) (next : Word) : Prop := next = s.pc + 4#32 ∨ aligned4 next = true

/-- All that an instruction can make of a state: it traps, or it retires after it has written a register, nothing,
bytes of memory, the unsynced set or a CSR. -/
inductive Effect (i : Instr) (s : State) : State → Prop where
  | trapped {cause : Cause} {info : Word} (hcause : cause ∈ mayRaise i) : Effect i s (s.takeTrap cause info)
  | wrote {rd : Reg} {v next : Word} (hrd : destination i = some rd) (hnext : Follows s next) :
    Effect i s ((s.setReg rd v).retire next)
  | moved {next : Word} (hnext : Follows s next) : Effect i s (s.retire next)
  | stored {a : Word} {bs : List Byte} (hi : isStore i = true) :
    Effect i s ((s.storeBytes a bs).retire (s.pc + 4#32))
  | synced (hi : i = .fenceI) : Effect i s (s.syncFetch.retire (s.pc + 4#32))
  | accessedCsr {rd : Reg} {c : CsrNum} {reads writes : Bool} {v : Word} (hi : isCsrAccess i = true)
    (hrd : destination i = some rd) (hallowed : s.csrAllowed c writes = true) :
    Effect i s ((s.csrAccessed rd c reads writes v).retire (s.pc + 4#32))

/-- The outcome is a next state, one that the instruction can make of `s`. -/
def Answers (i : Instr) (s : State) (r : Result) : Prop := ∃ t, r = .next t ∧ Effect i s t

section
variable {i : Instr} {s : State}

theorem State.accessCause_mem {kind : AccessKind} {m f c : Cause} {a : Word} {n : Nat}
    (h : s.accessCause kind m f a n = some c) : c ∈ [m, f] := by
  obtain ⟨hm, -, -⟩ | ⟨-, -, hn⟩ | ⟨-, -, hf⟩ := s.accessCause_cases kind m f a n
  · cases hm.symm.trans h
    exact .head _
  · cases hn.symm.trans h
  · cases hf.symm.trans h
    exact .tail _ (.head _)

/-- An access of one byte is never misaligned. -/
theorem State.accessCause_one_mem {kind : AccessKind} {m f c : Cause} {a : Word}
    (h : s.accessCause kind m f a 1 = some c) : c ∈ [f] := by
  rw [State.accessCause_not_misaligned (not_raisesMisaligned_one s a)] at h
  split at h
  · cases h
  · exact List.mem_singleton.2 (Option.some.inj h).symm

theorem State.raise_answers {cause : Cause} {info : Word} (hcause : cause ∈ mayRaise i) :
    Answers i s (s.raise cause info) := ⟨_, rfl, .trapped hcause⟩

theorem State.writeResult_answers {rd : Reg} {v : Word} (hrd : destination i = some rd) :
    Answers i s (s.writeResult rd v) := ⟨_, rfl, .wrote hrd (.inl rfl)⟩

theorem State.finish_answers : Answers i s s.finish := ⟨_, rfl, .moved (.inl rfl)⟩

theorem State.loadTo_answers {rd : Reg} {a : Word} {n : Nat} {v : Word} (hrd : destination i = some rd)
    (hcause : ∀ c, s.accessCause .load .loadAddressMisaligned .loadAccessFault a n = some c → c ∈ mayRaise i) :
    Answers i s (s.loadTo rd a n v) := by
  unfold State.loadTo
  split
  · next c hc => exact State.raise_answers (hcause c hc)
  · exact State.writeResult_answers hrd

theorem State.storeFrom_answers {a : Word} {n : Nat} {v : Word} (hi : isStore i = true)
    (hcause : ∀ c, s.accessCause .store .storeAddressMisaligned .storeAccessFault a n = some c → c ∈ mayRaise i) :
    Answers i s (s.storeFrom a n v) := by
  unfold State.storeFrom
  split
  · next c hc => exact State.raise_answers (hcause c hc)
  · exact ⟨_, rfl, .stored hi⟩

theorem State.goToLinking_answers {rd : Reg} {target : Word} (hrd : destination i = some rd)
    (hcause : .instructionAddressMisaligned ∈ mayRaise i) : Answers i s (s.goToLinking rd target) := by
  unfold State.goToLinking
  split
  · next htarget => exact ⟨_, rfl, .wrote hrd (.inr htarget)⟩
  · exact State.raise_answers hcause

theorem State.branchIf_answers {taken : Bool} {imm13 : BitVec 13}
    (hcause : .instructionAddressMisaligned ∈ mayRaise i) : Answers i s (s.branchIf taken imm13) := by
  unfold State.branchIf State.goTo
  split
  · split
    · next htarget => exact ⟨_, rfl, .moved (.inr htarget)⟩
    · exact State.raise_answers hcause
  · exact State.finish_answers

theorem State.csrAccess_answers {inst : Word} {rd : Reg} {c : CsrNum} {reads writes : Bool} {new : Word → Word}
    (hi : isCsrAccess i = true) (hrd : destination i = some rd) (hcause : .illegalInstruction ∈ mayRaise i) :
    Answers i s (s.csrAccess inst rd c reads writes new) := by
  unfold State.csrAccess
  split
  · next hallowed =>
    refine ⟨_, ?_, .accessedCsr (reads := reads) (v := new (((s.sampleCounters c).csrValue c).getD 0#32)) hi hrd
      hallowed⟩
    cases writes <;> cases reads <;> rfl
  · exact State.raise_answers hcause

/-- Every instruction answers a next state, in one of these ways. -/
theorem exec_answers (i : Instr) (s : State) : Answers i s (exec i s) := by
  cases i with
  | addi | slti | sltiu | xori | ori | andi | slli | srli | srai => exact State.writeResult_answers rfl
  | add | sub | slt | sltu | and | or | xor | sll | srl | sra => exact State.writeResult_answers rfl
  | lui | auipc => exact State.writeResult_answers rfl
  | lw | lh | lhu => exact State.loadTo_answers rfl fun _ => State.accessCause_mem
  | lb | lbu => exact State.loadTo_answers rfl fun _ => State.accessCause_one_mem
  | sw | sh => exact State.storeFrom_answers rfl fun _ => State.accessCause_mem
  | sb => exact State.storeFrom_answers rfl fun _ => State.accessCause_one_mem
  | csrrw | csrrs | csrrc | csrrwi | csrrsi | csrrci =>
    simp only [exec_csrrw, exec_csrrs, exec_csrrc, exec_csrrwi, exec_csrrsi, exec_csrrci]
    exact State.csrAccess_answers rfl rfl (.head _)
  | ecall | ebreak => exact State.raise_answers (.head _)
  | jal | jalr => exact State.goToLinking_answers rfl (.head _)
  | beq | bne | blt | bltu | bge | bgeu => exact State.branchIf_answers (.head _)
  | fence => exact State.finish_answers
  | fenceI => exact ⟨_, rfl, .synced rfl⟩

theorem exec_effect {t : State} (h : exec i s = .next t) : Effect i s t := by
  obtain ⟨u, hu, heffect⟩ := exec_answers i s
  cases hu.symm.trans h
  exact heffect

end

theorem step_eq_exec {i : Instr} {s : State} {w : Word} (hr : s.trap = none) (hf : s.fetch = .ok w)
    (hd : decode w = .ok i) : step s = exec i s := by
  simp only [step, hr, hf, hd]

/-! ## What an access to a CSR leaves unchanged (spec/42_system.md R160, R161) -/

section
variable (s : State) (rd : Reg) (c : CsrNum) (reads writes : Bool) (v : Word)

@[simp] theorem State.csrAccessed_unsynced : (s.csrAccessed rd c reads writes v).unsynced = s.unsynced := by
  cases writes <;> cases reads <;> rfl

@[simp] theorem State.csrAccessed_mem : (s.csrAccessed rd c reads writes v).mem = s.mem := by
  cases writes <;> cases reads <;> rfl

@[simp] theorem State.csrAccessed_platform : (s.csrAccessed rd c reads writes v).platform = s.platform := by
  cases writes <;> cases reads <;> rfl

@[simp] theorem State.csrAccessed_trap : (s.csrAccessed rd c reads writes v).trap = s.trap := by
  cases writes <;> cases reads <;> rfl

theorem State.csrAccessed_cycleCtr : (s.csrAccessed rd c reads writes v).cycleCtr = s.cycleCtr ∨
    (s.csrAccessed rd c reads writes v).cycleCtr = Config.cycleDraw s.draws s.cycleCtr := by
  have hread : (s.csrReadTo rd c).cycleCtr = s.cycleCtr ∨
      (s.csrReadTo rd c).cycleCtr = Config.cycleDraw s.draws s.cycleCtr := (ite_eq_or_eq _ _ _).symm
  cases writes <;> cases reads
  exacts [.inl rfl, hread, .inl rfl, hread]

theorem State.csrAccessed_timeCtr : (s.csrAccessed rd c reads writes v).timeCtr = s.timeCtr ∨
    (s.csrAccessed rd c reads writes v).timeCtr = Config.timeDraw s.draws s.timeCtr := by
  have hread : (s.csrReadTo rd c).timeCtr = s.timeCtr ∨
      (s.csrReadTo rd c).timeCtr = Config.timeDraw s.draws s.timeCtr := (ite_eq_or_eq _ _ _).symm
  cases writes <;> cases reads
  exacts [.inl rfl, hread, .inl rfl, hread]

theorem State.reg_csrReadTo_other {r : Reg} (h : r ≠ rd) : (s.csrReadTo rd c).reg r = s.reg r :=
  State.reg_setReg_other ((s.sampleCounters c).csrReadEffect c) _ h

theorem State.reg_csrAccessed_other {r : Reg} (h : r ≠ rd) : (s.csrAccessed rd c reads writes v).reg r = s.reg r := by
  have hread := s.reg_csrReadTo_other rd c h
  cases writes <;> cases reads
  exacts [rfl, hread, rfl, hread]

theorem State.csrReadTo_rightsKept : RightsKept s.extCsrs (s.csrReadTo rd c).extCsrs := by
  rw [State.csrReadTo_extCsrs, State.csrReadEffect_extCsrs]
  split
  · exact RightsKept.refl _
  · exact readCsr_rightsKept s.draws c s.extCsrs

variable {s c} in
theorem State.csrWrite_rightsKept (h : s.csrWritable c = true) : RightsKept s.extCsrs (s.csrWrite c v).extCsrs := by
  rw [State.csrWrite_extCsrs]
  split
  · exact RightsKept.refl _
  · obtain ⟨-, hw⟩ := Bool.and_eq_true_iff.1 h
    cases hcell : findCsr c s.extCsrs with
    | none => simp [hcell] at hw
    | some cell => exact writeCsr_rightsKept s.draws v hcell (by simpa [hcell] using hw)

/-- A read changes no CSR's right, so a CSR that the check found writable still is when it is written. -/
theorem State.csrWritable_csrReadTo : (s.csrReadTo rd c).csrWritable c = s.csrWritable c := by
  obtain ⟨hrights, -⟩ := s.csrReadTo_rightsKept rd c c
  have hw := congrArg (fun o => (o.map Prod.fst).getD false) hrights
  simp only [Option.map_map] at hw
  exact congrArg (!isCounter c && ·) hw

variable {s c writes} in
theorem State.csrAccessed_rightsKept (h : s.csrAllowed c writes = true) :
    RightsKept s.extCsrs (s.csrAccessed rd c reads writes v).extCsrs := by
  obtain ⟨-, hwrites⟩ := Bool.and_eq_true_iff.1 h
  have hread := s.csrReadTo_rightsKept rd c
  cases writes <;> cases reads
  · exact RightsKept.refl _
  · exact hread
  · exact State.csrWrite_rightsKept v hwrites
  · exact hread.trans (State.csrWrite_rightsKept v ((s.csrWritable_csrReadTo rd c).trans hwrites))

end

/-! ## What every instruction keeps -/

section
variable {i : Instr} {s t : State}

theorem exec_platform (h : exec i s = .next t) : t.platform = s.platform := by
  cases exec_effect h with
  | trapped | wrote | moved | stored | synced => rfl
  | accessedCsr => simp

theorem exec_rightsKept (h : exec i s = .next t) : RightsKept s.extCsrs t.extCsrs := by
  cases exec_effect h with
  | trapped | wrote | moved | stored | synced => exact RightsKept.refl _
  | accessedCsr _ _ hallowed => exact State.csrAccessed_rightsKept _ _ _ hallowed

theorem exec_extCsrs (h : exec i s = .next t) (hi : isCsrAccess i = false) : t.extCsrs = s.extCsrs := by
  cases exec_effect h with
  | trapped | wrote | moved | stored | synced => rfl
  | accessedCsr hcsr => exact absurd hcsr (Bool.eq_false_iff.1 hi)

/-- A multiple of 4 stays one by the next instruction's address, and a checked target is one. -/
theorem Follows.aligned {next : Word} (h : Follows s next) (hs : s.pc.toNat % 4 = 0) : next.toNat % 4 = 0 := by
  obtain rfl | htarget := h
  · rw [BitVec.toNat_add, BitVec.toNat_ofNat]
    omega
  · exact (aligned4_iff next).1 htarget

theorem State.Inv.of_exec (hs : s.Inv) (h : exec i s = .next t) : t.Inv := by
  have hnext : (s.pc + 4#32).toNat % 4 = 0 := Follows.aligned (.inl rfl) hs.pcAligned
  cases exec_effect h with
  | trapped => exact ⟨hs.pcAligned, hs.memWf, hs.unsyncedWf⟩
  | wrote _ hfollows => exact ⟨hfollows.aligned hs.pcAligned, hs.memWf, hs.unsyncedWf⟩
  | moved hfollows => exact ⟨hfollows.aligned hs.pcAligned, hs.memWf, hs.unsyncedWf⟩
  | stored =>
    obtain ⟨hmem, hunsynced⟩ := State.storeBytes_wf _ _ hs.memWf hs.unsyncedWf
    exact ⟨hnext, hmem, hunsynced⟩
  | synced => exact ⟨hnext, hs.memWf, .nil, nofun⟩
  | accessedCsr => exact ⟨hnext, by simpa using hs.memWf, by simpa using hs.unsyncedWf⟩

/-! ## What every step keeps -/

/-- A step of a running hart takes a trap of its own before anything else happens, or is the instruction at `pc`. -/
theorem step_traps_or_executes (h : step s = .next t) :
    (∃ c info, t = s.takeTrap c info) ∨ ∃ i, decode (s.fetchWordAt s.pc) = .ok i ∧ exec i s = .next t := by
  obtain ⟨-, ⟨c, -, rfl⟩ | ⟨w, e, -, -, rfl⟩ | ⟨w, i, hf, hd, hexec⟩⟩ := step_next h
  · exact .inl ⟨c, s.pc, rfl⟩
  · exact .inl ⟨_, w, rfl⟩
  · obtain ⟨-, -, rfl⟩ := State.fetch_ok hf
    exact .inr ⟨i, hd, hexec⟩

/-- A step of a running hart takes a trap, or retires an instruction and goes on running. -/
theorem step_traps_or_retires (h : step s = .next t) :
    (∃ c info, t = s.takeTrap c info) ∨ t.trap = none ∧ t.instretCtr = s.instretCtr + 1#64 := by
  obtain ⟨hr, -⟩ := step_next h
  obtain htrap | ⟨i, -, hexec⟩ := step_traps_or_executes h
  · exact .inl htrap
  · obtain htrap | hret := exec_ends hexec
    · exact .inl htrap
    · exact .inr ⟨hret.sameTrap.trans hr, hret.counted⟩

theorem exec_trap_cause {r : TrapRecord} (hr : s.trap = none) (h : exec i s = .next t) (ht : t.trap = some r) :
    r.cause ∈ mayRaise i := by
  cases exec_effect h with
  | trapped hcause =>
    cases ht
    exact hcause
  | wrote | moved | stored | synced => cases hr.symm.trans ht
  | accessedCsr =>
    rw [State.retire_trap, State.csrAccessed_trap, hr] at ht
    cases ht

theorem decode_error {w : Word} {e : Reject} (h : decode w = .error e) : e = .noRow w := by
  unfold decode at h
  split at h
  · cases h
  · exact (Except.error.inj h).symm

/-! ## What a run keeps -/

/-- A stopped hart takes no step, so a run that ends running was running all the way. -/
theorem Reaches.running {k : Nat} (h : Reaches k s t) (ht : t.trap = none) : s.trap = none := by
  cases h with
  | here => exact ht
  | after hstep _ => exact (step_next hstep).1

end

/-! ## The statements -/

/-- Settles O13: every shared operation ends in a next state, and so do the two traps a step takes itself. -/
theorem runningHartAlwaysSteps : Obligations.RunningHartAlwaysSteps := by
  have hexec (i : Instr) (s : State) : ∃ t, exec i s = .next t := by
    obtain ⟨t, ht, -⟩ := exec_answers i s
    exact ⟨t, ht⟩
  refine ⟨hexec, fun s hr => ?_, fun s r hr => by simp only [step, hr]⟩
  cases hf : s.fetch with
  | error c =>
    obtain ⟨t, ht, -⟩ := step_traps_of_fetch_error hr hf
    exact ⟨t, ht⟩
  | ok w =>
    cases hd : decode w with
    | error e =>
      obtain ⟨t, ht, -⟩ := step_traps_of_decode_error hr hf hd
      exact ⟨t, ht⟩
    | ok i => exact step_eq_exec hr hf hd ▸ hexec i s

/-- Settles O17: a trap leaves the three fields alone, and every effect of an instruction keeps their form. -/
theorem stepKeepsInvariant : Obligations.StepKeepsInvariant := by
  intro s t hs h
  obtain ⟨c, info, rfl⟩ | ⟨i, -, hexec⟩ := step_traps_or_executes h
  · exact ⟨hs.pcAligned, hs.memWf, hs.unsyncedWf⟩
  · exact hs.of_exec hexec

/-- Settles O18: a step that leaves a record is nothing but the taking of that trap. -/
theorem trapLeavesStateOfBefore : Obligations.TrapLeavesStateOfBefore := by
  intro s t r _ h ht
  obtain ⟨c, info, rfl⟩ | ⟨hn, -⟩ := step_traps_or_retires h
  · cases ht
    exact ⟨trappedOnly_takeTrap s c info, rfl⟩
  · cases hn.symm.trans ht

/-- Settles O19: the three ways a step can trap are the fetch's two checks, the failed decode, and the instruction. -/
theorem trapCauseByInstruction : Obligations.TrapCauseByInstruction := by
  intro s t r hr h ht
  obtain ⟨-, ⟨c, hf, rfl⟩ | ⟨w, e, hf, hd, rfl⟩ | ⟨w, i, hf, hd, hexec⟩⟩ := step_next h
  · cases ht
    obtain ⟨ha, rfl⟩ | ⟨-, hv, rfl⟩ := State.fetch_error hf
    · exact .inl ⟨rfl, mt (aligned4_iff _).2 (Bool.eq_false_iff.1 ha), rfl⟩
    · exact .inr (.inl ⟨rfl, mt (s.validSpan_iff _ _ _).2 (Bool.eq_false_iff.1 hv), rfl⟩)
  · cases ht
    cases decode_error hd
    obtain ⟨-, -, rfl⟩ := State.fetch_ok hf
    exact .inr (.inr (.inl ⟨rfl, (illegalWord_iff_decode _).2 hd, rfl⟩))
  · obtain ⟨-, -, rfl⟩ := State.fetch_ok hf
    exact .inr (.inr (.inr ⟨i, hd, exec_trap_cause hr hexec ht⟩))

/-- Settles O21: each step of a run that is still running after it retires one instruction and keeps the invariant. -/
theorem runCountsItsInstructions : Obligations.RunCountsItsInstructions := by
  intro k s t hs h ht
  induction h with
  | here s => exact ⟨by simp, hs⟩
  | @after k s u t hstep hrun ih =>
    obtain ⟨hcount, hinv⟩ := ih (stepKeepsInvariant s u hs hstep) ht
    obtain ⟨c, info, rfl⟩ | ⟨-, hone⟩ := step_traps_or_retires hstep
    · cases hrun.running ht
    · refine ⟨?_, hinv⟩
      rw [hcount, hone, BitVec.add_assoc, ← BitVec.ofNat_add, Nat.add_comm 1 k]

/-- Settles O23: a trap leaves the platform and its CSRs alone, and every effect of an instruction keeps the platform
and the rights. -/
theorem platformAndCsrRightsKept : Obligations.PlatformAndCsrRightsKept := by
  intro s t h
  obtain ⟨c, info, rfl⟩ | ⟨i, hd, hexec⟩ := step_traps_or_executes h
  · exact ⟨rfl, fun _ => ⟨rfl, fun _ hv => hv⟩, fun _ _ _ => rfl⟩
  · refine ⟨exec_platform hexec, fun c => ?_, fun j hj hcsr => ?_⟩
    · obtain ⟨hrights, hreadOnly⟩ := exec_rightsKept hexec c
      exact ⟨hrights, fun v hv => (hreadOnly v hv).trans hv⟩
    · cases hd.symm.trans hj
      exact exec_extCsrs hexec hcsr

/-- Settles O24: only the effect of a store names memory, and only it and FENCE.I's name the unsynced set. -/
theorem onlyStoresWriteMemory : Obligations.OnlyStoresWriteMemory := by
  intro i s t h hstore
  cases exec_effect h with
  | trapped | wrote | moved => exact ⟨fun _ => rfl, fun _ => rfl⟩
  | stored hi => exact absurd hi (Bool.eq_false_iff.1 hstore)
  | synced hi => exact ⟨fun _ => rfl, fun hne => absurd hi hne⟩
  | accessedCsr => exact ⟨State.byteAt_of_mem (by simp), fun _ => by simp⟩

/-- Settles O25: an effect writes no register but the destination, and a trap writes none. -/
theorem onlyDestinationChanges : Obligations.OnlyDestinationChanges := by
  intro i s t r hr h hor
  have hother {rd : Reg} (hrd : destination i = some rd) (ht : t.trap = none) : r ≠ rd :=
    fun e => hor.elim (fun hd => hd (e ▸ hrd)) (fun htrap => htrap ht)
  cases exec_effect h with
  | trapped | moved | stored | synced => rfl
  | wrote hrd => exact State.reg_setReg_other s _ (hother hrd hr)
  | accessedCsr _ hrd => exact s.reg_csrAccessed_other _ _ _ _ _ (hother hrd (by simpa using hr))

/-- Settles O26: only a read of a CSR touches the two counters, and it leaves each as it was or samples it. -/
theorem countersAreOnlySampled : Obligations.CountersAreOnlySampled := by
  intro i s t h
  cases exec_effect h with
  | trapped | wrote | moved | stored | synced => exact ⟨.inl rfl, .inl rfl⟩
  | accessedCsr => exact ⟨s.csrAccessed_cycleCtr .., s.csrAccessed_timeCtr ..⟩

end Sys2Proof.Machine
end

section
/-! PROOFS. The statements about the CSR instructions and IllegalInstruction: what the check decides, what a read and a
write of a CSR do, what the common part of the six does, then the statements. -/

namespace Sys2Proof.Machine

/-! ## The check (spec/42_system.md R160, spec/10_state.md R29, R33) -/

section
variable {s : State} {c : CsrNum}

theorem isCounter_iff (c : CsrNum) : isCounter c = true ↔ c ∈ counterCsrs := by
  simp only [isCounter, counterCsrs, csrCycle, csrTime, csrInstret, csrCycleh, csrTimeh, csrInstreth, Bool.or_eq_true,
    beq_iff_eq, List.mem_cons, List.not_mem_nil, or_false, or_assoc]

theorem ne_of_not_counter (h : isCounter c = false) : c ≠ csrCycle ∧ c ≠ csrTime ∧ c ≠ csrInstret ∧
    c ≠ csrCycleh ∧ c ≠ csrTimeh ∧ c ≠ csrInstreth := by
  simpa only [isCounter, Bool.or_eq_false_iff, beq_eq_false_iff_ne, and_assoc] using h

theorem csrExists_iff (s : State) (c : CsrNum) :
    CsrExists s c ↔ (isCounter c || (findCsr c s.extCsrs).isSome) = true := by
  rw [CsrExists, Bool.or_eq_true, isCounter_iff, Option.isSome_iff_exists]

theorem csrMayWrite_iff (s : State) (c : CsrNum) : CsrMayWrite s c ↔ s.csrWritable c = true := by
  rw [CsrMayWrite, State.csrWritable, Bool.and_eq_true, Bool.not_eq_true', ← Bool.not_eq_true, isCounter_iff]
  cases findCsr c s.extCsrs <;> simp

theorem csrAllowed_iff (s : State) (c : CsrNum) (writes : Bool) :
    s.csrAllowed c writes = true ↔ CsrExists s c ∧ (writes = true → CsrMayWrite s c) := by
  rw [State.csrAllowed, Bool.and_eq_true, csrExists_iff, csrMayWrite_iff]
  cases writes <;> simp

theorem CsrMayWrite.cell (h : CsrMayWrite s c) : ∃ cell, findCsr c s.extCsrs = some cell := by
  obtain ⟨-, cell, hcell, -⟩ := h
  exact ⟨cell, hcell⟩

theorem CsrMayWrite.exists (h : CsrMayWrite s c) : CsrExists s c := .inr h.cell

theorem CsrMayWrite.not_counter (h : CsrMayWrite s c) : isCounter c = false := by
  obtain ⟨hc, -⟩ := h
  exact Bool.eq_false_iff.2 (mt (isCounter_iff c).1 hc)

/-! ## What a read and a write do (spec/42_system.md R160, R161) -/

/-- The value a read of a CSR finds. -/
def State.csrFound (s : State) (c : CsrNum) : Word := ((s.sampleCounters c).csrValue c).getD 0#32

/-- The state a read of a CSR leaves, before the value reaches `rd`. -/
def State.csrSampled (s : State) (c : CsrNum) : State := (s.sampleCounters c).csrReadEffect c

theorem lowHalf_eq_div (n : BitVec 64) : lowHalf n = BitVec.ofNat 32 (n.toNat / 2 ^ 0) := by
  rw [lowHalf_eq, pow_zero, Nat.div_one]

/-- Only a read of a counter samples one. -/
theorem State.sampleCounters_of_not_counter (s : State) (hc : isCounter c = false) : s.sampleCounters c = s := by
  simp [State.sampleCounters, ne_of_not_counter hc]

theorem State.csrSampled_of_not_counter (s : State) (hc : isCounter c = false) :
    s.csrSampled c = { s with extCsrs := readCsr s.draws c s.extCsrs } := by
  rw [State.csrSampled, s.sampleCounters_of_not_counter hc, State.csrReadEffect, hc]
  rfl

theorem State.csrFound_of_cell {cell : CsrCell} (hc : isCounter c = false) (hcell : findCsr c s.extCsrs = some cell) :
    s.csrFound c = if cell.behaviour = .custom then Config.csrReadValue s.draws c cell.value else cell.value := by
  have hvalue : s.csrFound c = cell.readValue s.draws c := by
    rw [State.csrFound, s.sampleCounters_of_not_counter hc]
    simp [State.csrValue, ne_of_not_counter hc, hcell]
  rw [hvalue, CsrCell.readValue]
  cases cell.behaviour <;> rfl

theorem csrReads_of_cell {cell : CsrCell} (hc : isCounter c = false) (hcell : findCsr c s.extCsrs = some cell) :
    CsrReads s c (s.csrFound c) (s.csrSampled c) := by
  have hne := ne_of_not_counter hc
  simp only [csrCycle, csrTime, csrInstret, csrCycleh, csrTimeh, csrInstreth] at hne
  simp only [CsrReads, hne, or_self, if_false, s.csrSampled_of_not_counter hc]
  exact ⟨cell, hcell, State.csrFound_of_cell hc hcell, True.intro, fun d => findCsr_readCsr hcell d⟩

/-- A read of a CSR that exists finds and leaves what the statements say of it. -/
theorem CsrExists.reads (h : CsrExists s c) : CsrReads s c (s.csrFound c) (s.csrSampled c) := by
  by_cases hc : c ∈ counterCsrs
  · simp only [counterCsrs, List.mem_cons, List.not_mem_nil, or_false] at hc
    rcases hc with rfl | rfl | rfl | rfl | rfl | rfl
    · exact ⟨rfl, lowHalf_eq_div _⟩
    · exact ⟨rfl, lowHalf_eq_div _⟩
    · exact ⟨rfl, lowHalf_eq_div _⟩
    · exact ⟨rfl, highHalf_eq _⟩
    · exact ⟨rfl, highHalf_eq _⟩
    · exact ⟨rfl, highHalf_eq _⟩
  · obtain ⟨cell, hcell⟩ := h.resolve_left hc
    exact csrReads_of_cell (Bool.eq_false_iff.2 (mt (isCounter_iff c).1 hc)) hcell

/-- A read removes no CSR of the platform. -/
theorem CsrMayWrite.cell_csrSampled (h : CsrMayWrite s c) : ∃ cell, findCsr c (s.csrSampled c).extCsrs = some cell := by
  obtain ⟨cell, hcell⟩ := h.cell
  rw [s.csrSampled_of_not_counter h.not_counter, findCsr_readCsr hcell, hcell, Option.map_some]
  exact ⟨_, rfl⟩

/-- A write that nothing of the platform's CSRs follows. -/
theorem csrReceived_csrWrite {t : State} {cell : CsrCell} {v : Word} (hc : isCounter c = false)
    (hcell : findCsr c s.extCsrs = some cell) (ht : t.extCsrs = (s.csrWrite c v).extCsrs) : CsrReceived s t c v := by
  refine ⟨cell, hcell, fun d => ?_⟩
  rw [ht, State.csrWrite_extCsrs, if_neg (Bool.eq_false_iff.1 hc), findCsr_writeCsr hcell]

/-! ## What the common part of the CSR instructions does (spec/42_system.md R162 to R167) -/

section
variable {i : Instr} {rd : Reg} {reads writes : Bool} {new : Word → Word}

theorem raisesIllegal_of_csrAccess (hi : exec i s = s.csrAccess (encode i) rd c reads writes new)
    (h : ¬ (CsrExists s c ∧ (writes = true → CsrMayWrite s c))) : RaisesIllegal i s := by
  rw [State.csrAccess, if_neg (mt (csrAllowed_iff s c writes).1 h)] at hi
  exact traps_of_raise hi

theorem exec_of_csrAccess (hi : exec i s = s.csrAccess (encode i) rd c reads writes new)
    (h : CsrExists s c ∧ (writes = true → CsrMayWrite s c)) :
    exec i s = .next ((s.csrAccessed rd c reads writes (new (s.csrFound c))).retire (s.pc + 4#32)) := by
  rw [hi, State.csrAccess, if_pos ((csrAllowed_iff s c writes).2 h)]
  cases writes <;> cases reads <;> rfl

/-- Between the read and the end of the instruction only `rd` and the platform's CSRs change. -/
theorem wroteOnly_csrAccessed (s : State) (rd : Reg) (c : CsrNum) (writes : Bool) (v next : Word) :
    WroteOnly { s.csrSampled c with extCsrs := (s.csrAccessed rd c true writes v).extCsrs }
      ((s.csrAccessed rd c true writes v).retire next) rd (s.csrFound c) next := by
  cases writes <;> exact wroteOnly_setReg_retire { s.csrSampled c with extCsrs := _ } rd (s.csrFound c) next

/-- A form that always reads, and writes exactly when `W` holds. -/
theorem readsAndMayWrite_of_csrAccess {W : Prop} (hW : writes = true ↔ W)
    (hi : exec i s = s.csrAccess (encode i) rd c true writes new) : ReadsAndMayWrite i s rd c W new := by
  rw [ReadsAndMayWrite, ← hW]
  refine ⟨fun h => ⟨s.csrFound c, s.csrSampled c, _, h.1.reads, exec_of_csrAccess hi h, wroteOnly_csrAccessed ..,
    fun hw => ?_, fun hw => ?_⟩, raisesIllegal_of_csrAccess hi⟩
  · have hmay := h.2 hw
    obtain ⟨cell, hcell⟩ := hmay.cell_csrSampled
    subst hw
    exact csrReceived_csrWrite hmay.not_counter hcell rfl
  · cases Bool.eq_false_iff.2 hw
    rfl

/-- A form that always writes, and reads exactly when `rd` is not `x0`. A CSR that may be written is no counter, so
the read samples nothing. -/
theorem writesAndMayRead_of_csrAccess {v : Word}
    (hi : exec i s = s.csrAccess (encode i) rd c (rd != 0#5) true (fun _ => v)) : WritesAndMayRead i s rd c v := by
  refine ⟨fun h => ?_, fun h => raisesIllegal_of_csrAccess hi fun hallowed => h (hallowed.2 rfl)⟩
  have hexec := exec_of_csrAccess hi ⟨h.exists, fun _ => h⟩
  by_cases hrd : rd = 0#5
  · subst hrd
    obtain ⟨cell, hcell⟩ := h.cell
    exact ⟨0#32, s, _, (if_pos rfl).mpr rfl, hexec, movedOnly_retire { s with extCsrs := _ } _,
      csrReceived_csrWrite h.not_counter hcell rfl⟩
  · rw [bne_iff_ne.2 hrd] at hexec
    obtain ⟨cell, hcell⟩ := h.cell_csrSampled
    have hwrote := wroteOnly_csrAccessed s rd c true v (s.pc + 4#32)
    rw [s.csrSampled_of_not_counter h.not_counter] at hwrote
    exact ⟨s.csrFound c, s.csrSampled c, _, (if_neg hrd).mpr h.exists.reads, hexec, hwrote,
      csrReceived_csrWrite h.not_counter hcell rfl⟩

end

/-- A form that the check refuses, in the two ways of spec/60_exceptions.md R283. -/
theorem not_allowed_of {W : Prop} (h : ¬ CsrExists s c ∨ (W ∧ ¬ CsrMayWrite s c)) :
    ¬ (CsrExists s c ∧ (W → CsrMayWrite s c)) :=
  fun ⟨hexists, hmay⟩ => h.elim (· hexists) fun ⟨hw, hnot⟩ => hnot (hmay hw)

end

/-! ## The statements -/

theorem zext5_eq_ofNat (imm5 : BitVec 5) : zext5 imm5 = BitVec.ofNat 32 imm5.toNat :=
  (BitVec.ofNat_toNat 32 imm5).symm

/-- Settles O49: CSRRW is the form that always writes, with the register's old value. -/
theorem csrrwWrites : Obligations.CsrrwWrites := fun s rd c rs1 =>
  ⟨rfl, writesAndMayRead_of_csrAccess (exec_csrrw s rd c rs1)⟩

/-- Settles O50: CSRRWI is the form that always writes, with its literal. -/
theorem csrrwiWrites : Obligations.CsrrwiWrites := fun s rd c imm5 =>
  ⟨rfl, zext5_eq_ofNat imm5 ▸ writesAndMayRead_of_csrAccess (exec_csrrwi s rd c imm5)⟩

/-- Settles O51: CSRRS and CSRRC are the form that always reads, and their test for the write is of the field. -/
theorem csrrsCsrrcRead : Obligations.CsrrsCsrrcRead := fun s rd c rs1 =>
  ⟨rfl, rfl, readsAndMayWrite_of_csrAccess bne_iff_ne (exec_csrrs s rd c rs1),
    readsAndMayWrite_of_csrAccess bne_iff_ne (exec_csrrc s rd c rs1)⟩

/-- Settles O52: CSRRSI and CSRRCI are the form that always reads, and their test for the write is of the literal. -/
theorem csrrsiCsrrciRead : Obligations.CsrrsiCsrrciRead := fun s rd c imm5 =>
  ⟨rfl, rfl, zext5_eq_ofNat imm5 ▸ readsAndMayWrite_of_csrAccess bne_iff_ne (exec_csrrsi s rd c imm5),
    zext5_eq_ofNat imm5 ▸ readsAndMayWrite_of_csrAccess bne_iff_ne (exec_csrrci s rd c imm5)⟩

/-- Settles O9: a word that no row takes fails at decode, and a CSR form that its check refuses raises. -/
theorem illegalInstructionCauses : Obligations.IllegalInstructionCauses := by
  refine ⟨fun s w hr hf hrows => ?word, fun s rd rs1 c imm5 => ⟨fun h => ?write, fun h => ?register, fun h => ?literal⟩⟩
  case word =>
    obtain ⟨-, -, hillegal⟩ := decodeFollowsTheTable w
    exact step_traps_of_decode_error hr hf (hillegal hrows)
  case write =>
    have hnot : ¬ CsrMayWrite s c := h.elim (mt CsrMayWrite.exists) id
    obtain ⟨-, -, hcsrrw⟩ := csrrwWrites s rd c rs1
    obtain ⟨-, -, hcsrrwi⟩ := csrrwiWrites s rd c imm5
    exact ⟨hcsrrw hnot, hcsrrwi hnot⟩
  case register =>
    obtain ⟨-, -, ⟨-, hcsrrs⟩, -, hcsrrc⟩ := csrrsCsrrcRead s rd c rs1
    exact ⟨hcsrrs (not_allowed_of h), hcsrrc (not_allowed_of h)⟩
  case literal =>
    obtain ⟨-, -, ⟨-, hcsrrsi⟩, -, hcsrrci⟩ := csrrsiCsrrciRead s rd c imm5
    exact ⟨hcsrrsi (not_allowed_of h), hcsrrci (not_allowed_of h)⟩

end Sys2Proof.Machine
end

section
/-! PROOFS. The statements about the pseudo-ops: the values, jumps and reads that the special operands make of their
real instructions, then the statements. -/

namespace Sys2Proof.Machine

/-! ## Comparison and complement with the special operands (spec/49_pseudo_ops.md R250 to R252) -/

theorem toNat_eq_zero_iff (a : Word) : a.toNat = 0 ↔ a = 0#32 := BitVec.toNat_inj (y := 0#32)

theorem boolWord_lessUnsigned_one (a : Word) :
    boolWord (lessUnsigned a (sext12 1#12)) = if a = 0#32 then 1#32 else 0#32 := by
  have hone : (sext12 1#12).toNat = 1 := by decide
  rw [boolWord_lessUnsigned, hone]
  simp only [Nat.lt_one_iff, toNat_eq_zero_iff]

theorem boolWord_zero_lessUnsigned (a : Word) :
    boolWord (lessUnsigned 0#32 a) = if a ≠ 0#32 then 1#32 else 0#32 := by
  rw [boolWord_lessUnsigned]
  simp only [BitVec.toNat_ofNat, Nat.zero_mod, Nat.pos_iff_ne_zero, ne_eq, toNat_eq_zero_iff]

theorem xor_sext12_ones (a : Word) : a ^^^ sext12 0xFFF#12 = ~~~a := by
  have hones : sext12 0xFFF#12 = BitVec.allOnes 32 := by decide
  rw [hones, BitVec.xor_allOnes]

/-! ## A jump without a link (spec/49_pseudo_ops.md R254) -/

section
variable {s t : State}

/-- What a write to `x0` would have written makes no difference (spec/10_state.md R21). -/
theorem WroteOnly.discarded {v v' next : Word} (h : WroteOnly s t 0#5 v next) : WroteOnly s t 0#5 v' next :=
  { h with destination := fun hne => absurd rfl hne }

theorem Transferred.discarded {link link' target : Word} (h : Transferred s t 0#5 link target) :
    Transferred s t 0#5 link' target := by
  unfold Transferred at h ⊢
  split at h
  · next ha => exact if_pos ha ▸ h.discarded
  · next ha => exact if_neg ha ▸ h

end

/-! ## A read that writes nothing (spec/49_pseudo_ops.md R259, R267 to R269) -/

theorem exec_csrrs_x0 (s : State) (rd : Reg) (c : CsrNum) : exec (.csrrs rd c 0#5) s =
    s.csrAccess (encode (.csrrs rd c 0#5)) rd c true false (fun v => v) := by
  rw [exec_csrrs, bne_self_eq_false, State.reg_zero]
  simp only [BitVec.or_zero]

theorem csrrs_x0_reads (s : State) (rd : Reg) (c : CsrNum) :
    ReadsAndMayWrite (.csrrs rd c 0#5) s rd c False (fun v => v) :=
  readsAndMayWrite_of_csrAccess Bool.false_eq_true.to_iff (exec_csrrs_x0 s rd c)

/-- A counter always exists, and with the read all of the instruction is said. -/
theorem csrrs_x0_counter (s : State) (rd : Reg) {c : CsrNum} (hc : c ∈ counterCsrs) :
    ∃ v sampled t, CsrReads s c v sampled ∧ exec (.csrrs rd c 0#5) s = .next t ∧
      WroteOnly sampled t rd v (s.pc + 4#32) := by
  obtain ⟨hreads, -⟩ := csrrs_x0_reads s rd c
  obtain ⟨v, sampled, t, hread, hexec, hwrote, -, hcsrs⟩ := hreads ⟨.inl hc, False.elim⟩
  rw [hcsrs not_false] at hwrote
  exact ⟨v, sampled, t, hread, hexec, hwrote⟩

/-- The value of a read of a half of `cycle` is a half of the counter as the instruction leaves it. -/
theorem csrrs_x0_cycle (s : State) (rd : Reg) {c : CsrNum} (hc : c = 0xC00#12 ∨ c = 0xC80#12) :
    ∃ t, exec (.csrrs rd c 0#5) s = .next t ∧ WroteOnly { s with cycleCtr := t.cycleCtr } t rd
      (BitVec.ofNat 32 (t.cycleCtr.toNat / 2 ^ (if c = 0xC00#12 then 0 else 32))) (s.pc + 4#32) := by
  have hcounter : c ∈ counterCsrs := by rcases hc with rfl | rfl <;> decide
  obtain ⟨v, sampled, t, hread, hexec, hwrote⟩ := csrrs_x0_counter s rd hcounter
  rw [CsrReads, if_pos hc] at hread
  obtain ⟨rfl, rfl⟩ := hread
  exact ⟨t, hexec, hwrote.sameCycle ▸ hwrote⟩

theorem csrrs_x0_time (s : State) (rd : Reg) {c : CsrNum} (hc : c = 0xC01#12 ∨ c = 0xC81#12) :
    ∃ t, exec (.csrrs rd c 0#5) s = .next t ∧ WroteOnly { s with timeCtr := t.timeCtr } t rd
      (BitVec.ofNat 32 (t.timeCtr.toNat / 2 ^ (if c = 0xC01#12 then 0 else 32))) (s.pc + 4#32) := by
  have hcounter : c ∈ counterCsrs := by rcases hc with rfl | rfl <;> decide
  obtain ⟨v, sampled, t, hread, hexec, hwrote⟩ := csrrs_x0_counter s rd hcounter
  have hnot : ¬ (c = 0xC00#12 ∨ c = 0xC80#12) := by rcases hc with rfl | rfl <;> decide
  rw [CsrReads, if_neg hnot, if_pos hc] at hread
  obtain ⟨rfl, rfl⟩ := hread
  exact ⟨t, hexec, hwrote.sameTime ▸ hwrote⟩

/-! ## The statements -/

/-- Settles O56: each immediate or `x0` operand turns its instruction's value into the one described. -/
theorem pseudoArithmetic : Obligations.PseudoArithmetic := by
  refine fun s rd rs => ⟨rfl, rfl, rfl, rfl, rfl, ?seqz, ?not, ?snez, ?nop⟩
  case seqz => exact writes_of_writeResult (by rw [expand, exec_sltiu, boolWord_lessUnsigned_one])
  case not => exact writes_of_writeResult (by rw [expand, exec_xori, xor_sext12_ones])
  case snez => exact writes_of_writeResult (by rw [expand, exec_sltu, State.reg_zero, boolWord_zero_lessUnsigned])
  case nop => exact writes_of_writeResult (by rw [expand, exec_addi, State.reg_zero]; rfl)

/-- Settles O57: J is the jump whose link is discarded, and the four branches are those of the swapped operands. -/
theorem pseudoBranches : Obligations.PseudoBranches := by
  intro s r1 r2 imm13 imm21
  obtain ⟨-, t, hjal, htransferred⟩ := jalJumpsAndLinks s 0#5 imm21
  obtain ⟨-, -, hblt, hbge⟩ := branchSigned s r2 r1 imm13
  obtain ⟨-, -, hbltu, hbgeu⟩ := branchUnsigned s r2 r1 imm13
  exact ⟨rfl, rfl, rfl, rfl, rfl, ⟨t, hjal, htransferred.discarded⟩, hblt, hbltu, hbge, hbgeu⟩

/-- Settles O58: each is its CSR instruction with `x0` as destination or source. -/
theorem pseudoCsrAccess : Obligations.PseudoCsrAccess := by
  intro s rd rs1 c imm5
  obtain ⟨-, hcsrw⟩ := csrrwWrites s 0#5 c rs1
  obtain ⟨-, hcsrwi⟩ := csrrwiWrites s 0#5 c imm5
  obtain ⟨-, -, hcsrs, hcsrc⟩ := csrrsCsrrcRead s 0#5 c rs1
  obtain ⟨-, -, hcsrsi, hcsrci⟩ := csrrsiCsrrciRead s 0#5 c imm5
  exact ⟨rfl, rfl, rfl, rfl, rfl, rfl, rfl, csrrs_x0_reads s rd c, hcsrw, hcsrwi, hcsrs, hcsrc, hcsrsi, hcsrci⟩

/-- Settles O59: each is a read of its counter that writes nothing, and the read finds the half its number names. -/
theorem pseudoCounterReads : Obligations.PseudoCounterReads := by
  intro s rd
  obtain ⟨t, hcycle, hcycleWrote⟩ := csrrs_x0_cycle s rd (.inl rfl)
  obtain ⟨u, htime, htimeWrote⟩ := csrrs_x0_time s rd (.inl rfl)
  obtain ⟨-, -, hinstret⟩ := instretCountsRetired
  obtain ⟨hlow, -, -, -, hhigh, -⟩ := hinstret s rd
  exact ⟨rfl, rfl, rfl, rfl, rfl, rfl, ⟨t, hcycle, by simpa using hcycleWrote⟩, csrrs_x0_cycle s rd (.inr rfl),
    ⟨u, htime, by simpa using htimeWrote⟩, csrrs_x0_time s rd (.inr rfl), hlow, hhigh⟩

end Sys2Proof.Machine
end

section
/-! PROOFS. The statements about the fetch, the old bytes, a load after a store, FENCE and the state itself: what a
fetch finds of synced and of placed bytes, what a load reads of stored ones, then the statements. -/

namespace Sys2Proof.Machine

/-! ## The fetch (spec/10_state.md R25 step 1, spec/20_memory.md R56, spec/48_fence.md R245) -/

section
variable {s : State}

theorem State.fetch_eq_ok (hpc : s.pc.toNat % 4 = 0) (hv : AllValid s .fetch s.pc 4) :
    s.fetch = .ok (s.fetchWordAt s.pc) := by
  have ha : aligned4 s.pc = true := (aligned4_iff _).2 hpc
  have hs : s.validSpan .fetch s.pc 4 = true := (s.validSpan_iff _ _ _).2 hv
  simp [State.fetch, ha, hs]

/-- The word a fetch sees is put together from the four bytes it sees. -/
theorem State.fetchWordAt_eq {a : Word} {f : Nat → Byte}
    (h : ∀ k, k < 4 → s.fetchByte (a + BitVec.ofNat 32 k) = f k) :
    s.fetchWordAt a = leWord (f 0) (f 1) (f 2) (f 3) := by
  have h0 : s.fetchByte a = f 0 := by simpa using h 0 (by decide)
  rw [State.fetchWordAt, h0, h 1 (by decide), h 2 (by decide), h 3 (by decide)]

/-- A fetch of four synced bytes sees the word in memory. -/
theorem State.fetchWordAt_synced {a : Word}
    (h : ∀ k, k < 4 → findAt (a + BitVec.ofNat 32 k).toNat s.unsynced = none) :
    s.fetchWordAt a = BitVec.ofNat 32 (bytesValue s a 4) := by
  rw [← s.wordAt_eq, State.fetchWordAt_eq fun k hk => State.fetchByte_synced (h k hk), BitVec.add_zero]
  rfl

/-! ## Placed bytes (spec/70_reset_and_hazards.md R322) -/

theorem findAt_unmark (u : Unsynced) (a : Word) (n b : Nat) :
    findAt b (u.unmark a n) = if b ∈ spanOf a n then none else findAt b u := by
  induction n generalizing u a with
  | zero => rfl
  | succ n ih =>
    rw [Unsynced.unmark, ih, findAt_dropAt, spanOf]
    by_cases hb : b = a.toNat <;> simp [hb]

variable (s) in
theorem State.withFetchWord_eq (w : Word) :
    s.withFetchWord 32 w.toNat = { s.placeBytes s.pc (leBytes w 4) with trap := none } := by
  rw [State.withFetchWord, Nat.mod_eq_of_lt w.isLt, BitVec.ofNat_toNat, BitVec.setWidth_eq]

variable (s) in
theorem State.fetchByte_withFetchWord (w : Word) {k : Nat} (hk : k < 4) :
    (s.withFetchWord 32 w.toNat).fetchByte (s.pc + BitVec.ofNat 32 k) = w.extractLsb' (8 * k) 8 := by
  have hspan : (s.pc + BitVec.ofNat 32 k).toNat ∈ spanOf s.pc 4 := toNat_mem_spanOf_iff.2 ⟨k, hk, rfl⟩
  rw [State.fetchByte_synced (by rw [State.withFetchWord_unsynced, findAt_unmark, if_pos hspan]), s.withFetchWord_eq]
  exact s.byteAt_storeBytes_leBytes s.pc w hk (by decide)

variable (s) in
theorem State.fetch_withFetchWord (w : Word) (hpc : s.pc.toNat % 4 = 0) (hv : AllValid s .fetch s.pc 4) :
    (s.withFetchWord 32 w.toNat).fetch = .ok w := by
  rw [State.fetch_eq_ok (s := s.withFetchWord 32 w.toNat) hpc hv, State.withFetchWord_pc,
    State.fetchWordAt_eq fun k => s.fetchByte_withFetchWord w, leWord_bytes]

variable (s) in
theorem State.byteAt_withFetchWord_outside (w : Word) {a : Word} (ha : ∀ k, k < 4 → a ≠ s.pc + BitVec.ofNat 32 k) :
    (s.withFetchWord 32 w.toNat).byteAt a = s.byteAt a := by
  rw [s.withFetchWord_eq]
  refine s.byteAt_storeBytes_outside s.pc a (leBytes w 4) ?_
  rw [leBytes_length, toNat_mem_spanOf_iff]
  exact fun ⟨k, hk, h⟩ => ha k hk h

/-! ## A load after a store (spec/20_memory.md R50, spec/41_jalr_loads.md R141, spec/47_store.md R233) -/

variable {t : State}

theorem State.storeFrom_running {a v : Word} {n : Nat} (h : s.storeFrom a n v = .next t) (ht : t.trap = none) :
    t = (s.storeBytes a (leBytes v n)).retire (s.pc + 4#32) := by
  obtain ⟨-, rfl⟩ | ⟨c, -, rfl⟩ := State.storeFrom_next h
  · rfl
  · cases ht

theorem State.reg_of_loadTo_running {rd : Reg} {a v : Word} {n : Nat} (h : s.loadTo rd a n v = .next t)
    (ht : t.trap = none) (hrd : rd ≠ 0#5) : t.reg rd = v := by
  obtain ⟨-, rfl⟩ | ⟨c, -, rfl⟩ := State.loadTo_next h
  · simp [hrd]
  · cases ht

/-- The four bytes from `a` up hold the word `v`. -/
def HoldsWord (s : State) (a v : Word) : Prop :=
  ∀ k, k < 4 → s.byteAt (a + BitVec.ofNat 32 k) = v.extractLsb' (8 * k) 8

theorem HoldsWord.wordAt {a v : Word} (h : HoldsWord s a v) : s.wordAt a = v := by
  have h0 : s.byteAt a = v.extractLsb' 0 8 := by simpa using h 0 (by decide)
  rw [State.wordAt, h0, h 1 (by decide), h 2 (by decide), h 3 (by decide), leWord_bytes]

theorem HoldsWord.halfAt {a v : Word} (h : HoldsWord s a v) {k : Nat} (hk : k < 3) :
    s.halfAt (a + BitVec.ofNat 32 k) = v.extractLsb' (8 * k) 16 := by
  have hnext : a + BitVec.ofNat 32 k + 1#32 = a + BitVec.ofNat 32 (k + 1) := by
    rw [BitVec.add_assoc, ← BitVec.ofNat_add]
  rw [State.halfAt, hnext, h k (by omega), h (k + 1) (by omega), Nat.mul_succ, leHalf_bytes]

end

/-! ## The sets of a FENCE (spec/30_encoding.md R88) -/

theorem append_append_ofBool {m n : Nat} (x : BitVec n) (y : BitVec m) (b : Bool) :
    x ++ y ++ BitVec.ofBool b = x ++ (y ++ BitVec.ofBool b) := BitVec.append_assoc

theorem append_bits {n : Nat} (x : BitVec n) (p : FenceSet) :
    x ++ p.bits = x ++ BitVec.ofBool p.i ++ BitVec.ofBool p.o ++ BitVec.ofBool p.r ++ BitVec.ofBool p.w := by
  rw [append_append_ofBool x _ p.o, append_append_ofBool x _ p.r, append_append_ofBool x _ p.w]
  rfl

/-! ## The statements -/

/-- Settles O7: the checks of the fetch pass, so the step is the decoded instruction. -/
theorem stepRunsDecoded : Obligations.StepRunsDecoded := fun _ _ hr hpc hv hd _ =>
  ⟨step_eq_exec hr (State.fetch_eq_ok hpc hv) hd, State.fetchWordAt_synced⟩

/-- Settles O10: placing takes the four addresses out of the unsynced set, so the fetch sees what was placed there. -/
theorem placedWordRuns : Obligations.PlacedWordRuns := by
  intro s w hpc hv
  have hfetch := s.fetch_withFetchWord w hpc hv
  exact ⟨hfetch, fun i hd => step_eq_exec rfl hfetch hd, fun a ha => s.byteAt_withFetchWord_outside w ha,
    fun _ => rfl, rfl⟩

/-- Settles O11: the two bytes a fetch can see are memory's and the old one, which is `base`'s. -/
theorem fetchSeesCurrentOrOldByte : Obligations.FetchSeesCurrentOrOldByte := by
  intro base s a hold
  refine ⟨State.fetchByte_synced, fun _ => ?_⟩
  rw [← oldBytesFrom_iff.1 hold a]
  exact s.fetchByte_eq_byteAt_or_oldByte a

theorem oldBytesFrom_self {s : State} (h : s.unsynced = []) : OldBytesFrom s s :=
  oldBytesFrom_iff.2 (State.oldByte_of_unsynced_nil h)

/-- Settles O12: FENCE.I alone changes an old byte, and it leaves the unsynced set empty. -/
theorem oldBytesStayUntilFenceI : Obligations.OldBytesStayUntilFenceI := by
  refine ⟨fun s => oldBytesFrom_self, fun i base s t hold h hi => ?_, fun s t h => ?_⟩
  · exact oldBytesFrom_iff.2 fun a => (exec_keepsOldBytes hi h a).trans (oldBytesFrom_iff.1 hold a)
  · rw [exec_fenceI] at h
    cases h
    exact oldBytesFrom_self rfl

/-- Settles O27: the stored word stands in the four bytes, and a load puts together those it reads. -/
theorem storedWordReadsBack : Obligations.StoredWordReadsBack := by
  intro rs2 rs1 rd r imm imm' s t u k hstore ht hu hrd haddr
  rw [exec_sw] at hstore
  have holds : HoldsWord t (s.effAddr rs1 imm) (s.reg rs2) := by
    cases State.storeFrom_running hstore ht
    exact fun k hk => s.byteAt_storeBytes_leBytes _ _ hk (by decide)
  refine ⟨fun hk hload => ?_, fun hk hload => ?_, fun hk hload => ?_⟩
  · subst hk
    rw [exec_lw, haddr, BitVec.add_zero, holds.wordAt] at hload
    exact State.reg_of_loadTo_running hload hu hrd
  · rw [exec_lhu, haddr, holds.halfAt hk] at hload
    exact State.reg_of_loadTo_running hload hu hrd
  · rw [exec_lbu, haddr, holds k hk] at hload
    exact State.reg_of_loadTo_running hload hu hrd

/-- Settles O14: a write reaches the register it names and no other, and `x0` reads 0 in every state. -/
theorem registerReadAfterWrite : Obligations.RegisterReadAfterWrite := fun s _ _ v =>
  ⟨s.reg_setReg_same v, s.reg_setReg_other v, State.reg_zero _⟩

/-- Settles O15: the state after reset lists no CSR of the platform and no hole; the rest are its fields. -/
theorem resetState : Obligations.ResetState := by
  refine ⟨State.reg_zero _, by decide, rfl, rfl, fun c => ?_, fun b kind => memValid_of_no_holes rfl b kind, rfl, rfl⟩
  have hnone : findCsr c State.reset.extCsrs = none := rfl
  simp [CsrExists, hnone]

/-- Settles O16: the address of reset is a multiple of 4, and both lists are empty. -/
theorem resetMeetsInvariant : Obligations.ResetMeetsInvariant := ⟨by decide, reset_mem_wf, by decide⟩

/-- Settles O28: adding the extended immediate as words is adding it as an integer, modulo 2^32. -/
theorem effectiveAddress : Obligations.EffectiveAddress := by
  intro s rs1 imm12
  rw [State.effAddr, sext12_eq_ofInt, BitVec.ofInt_add, BitVec.ofInt_natCast, BitVec.ofNat_toNat, BitVec.setWidth_eq]

/-- Settles O54: FENCE is nothing but the end of an instruction, whatever its sets. -/
theorem fenceOnlyMovesOn : Obligations.FenceOnlyMovesOn := by
  refine fun s p q => ⟨?word, _, rfl, movedOnly_retire s _⟩
  case word =>
    rw [encode, append_bits, append_bits]
    rfl

end Sys2Proof.Machine
end
